-- ==== Sys2Proof/Word.lean ====
section
/-! DEFINITION. The word types of the machine (R7): bytes, 16-bit addresses, 4-bit color cells. -/

namespace Sys2Proof

/-- A byte: the data width of the machine (R7, R9). -/
abbrev Byte := BitVec 8

/-- A 16-bit word: an address, the program counter, a timer (R7). -/
abbrev Word := BitVec 16

/-- A four-bit cell of color RAM (R29). -/
abbrev Nibble := BitVec 4

end Sys2Proof
end

