-- ==== Sys2Proof/Config.lean ====
section
/-! DEFINITION. What the machine fixes (R7) and what the spec leaves to the model (R8): the instance values of the power-on
draws that `State.reset` uses, and the free value `colorHigh`. -/

namespace Sys2Proof.Config

/-- `CYCLE_BUDGET` (R7, R186, D1). -/
def cycleBudget : Nat := 20000

/-- The byte an unlisted RAM address reads as. DESIGN CHOICE (log 1): one instance of the draw `RAM_INIT` (D2); every
other content is a listed RAM. -/
def ramFill : Byte := 0x00

/-- The cell an unlisted color RAM index reads as. DESIGN CHOICE (log 2): one instance of the draw `COLOR_INIT` (D2). -/
def colorFill : Nibble := 0x0

/-- The byte an unlisted offset of the BASIC ROM image reads as. DESIGN CHOICE (log 4): the test image of
95_test_vectors.md section 1 is all $BB. -/
def basicFill : Byte := 0xBB

/-- The byte an unlisted offset of the KERNAL ROM image reads as. DESIGN CHOICE (log 4): the test image is all $EE but its
last six bytes. -/
def kernalFill : Byte := 0xEE

/-- The byte an unlisted offset of the CHAR ROM image reads as. DESIGN CHOICE (log 4): the test image is all $CC. -/
def charFill : Byte := 0xCC

/-- A after reset. DESIGN CHOICE (log 3): one instance of the draw `AXY_INIT` (D4). -/
def aInit : Byte := 0x00

/-- X after reset. DESIGN CHOICE (log 3): one instance of the draw `AXY_INIT` (D4). -/
def xInit : Byte := 0x00

/-- Y after reset. DESIGN CHOICE (log 3): one instance of the draw `AXY_INIT` (D4). -/
def yInit : Byte := 0x00

/-- `COLOR_HIGH`: the upper four bits of the n-th color RAM read, a FREE VALUE (R46, D3, log 5). It has no body: nothing can
be proved of it. -/
opaque colorHigh : Nat → BitVec 4

end Sys2Proof.Config
end

