-- ==== Sys2Proof/Machine/State.lean ====
section
/-! DEFINITION. The state of the machine as plain data: the one record of R16, the reasons a step can stop, and the state
after reset (R34, R197). Fields marked "model's own" are not the spec's; their log entries say why they are there. -/

namespace Sys2Proof.Machine

/-- Why the machine has stopped: no further step exists. -/
inductive Fault where
  /-- Raised by `step` when a fatal fault was recorded or the loop was halted by an earlier step (R27, R138, R189: exit code
  3). The faulting step itself is a next state that records the fault (log 9). Safe: the hardware takes no step either. -/
  | halted
  /-- Raised by `step` when the host has asked for shutdown: the loop returns exit code 0 before the next iteration (R188,
  R195). Safe: the hardware takes no step either. -/
  | shutdownExit
  deriving DecidableEq, Repr

/-- Why an instruction has no meaning. -/
inductive Refusal where
  /-- Raised by `exec` for an instruction that has no meaning yet. Every instruction has one, so no arm raises it. Safe. -/
  | notModelled (mnemonic : String)
  deriving DecidableEq, Repr

/-- The reason of a fatal fault. The spec has one (R147). -/
inductive FatalReason where
  | undefinedOpcode
  deriving DecidableEq, Repr

/-- `Fatal(reason, opcode, address)` (R27, R147). -/
structure Fatal where
  reason  : FatalReason
  opcode  : Byte
  address : Word
  deriving DecidableEq, Repr

/-- The six stored status flags (R22). B and bit 5 are not stored. -/
structure Flags where
  n : Bool
  v : Bool
  d : Bool
  i : Bool
  z : Bool
  c : Bool
  deriving DecidableEq, Repr

/-- The VIC-II (R30): `VREG[0..46]`, the raster line, the cycle accumulator, the IRQ latch of $D019 (bits 0 to 3) and
`frame_available`. `vreg[0x19]` is never written and plays no part (R158). -/
structure Vic where
  vreg           : Vector Byte 47
  raster         : BitVec 9
  acc            : Nat
  latch          : BitVec 4
  frameAvailable : Bool
  deriving DecidableEq, Repr

/-- A CIA (R31): ports, two timers (latch and counter), control registers, the interrupt latch and mask (bits 0 to 4), and
the storage-only TOD and SDR. -/
structure Cia where
  pra     : Byte
  prb     : Byte
  ddra    : Byte
  ddrb    : Byte
  taLatch : Word
  taCnt   : Word
  tbLatch : Word
  tbCnt   : Word
  cra     : Byte
  crb     : Byte
  icrLatch : BitVec 5
  icrMask  : BitVec 5
  tod     : Vector Byte 4
  sdr     : Byte
  deriving DecidableEq, Repr

/-- The position of a key event (R190): column and row of the matrix, or RESTORE. -/
inductive KeyPos where
  | matrix (c r : Fin 8)
  | restore
  deriving DecidableEq, Repr

/-- A host key event `{ pos, down }` (R190, D28). -/
structure KeyEvent where
  pos  : KeyPos
  down : Bool
  deriving DecidableEq, Repr

/-- The state of the machine (R16). RAM, the ROM images and color RAM are lists of (address, value) pairs in the canonical
form of `Memory.wf`: an address that is not listed reads as the fill value of `Config`. -/
structure State where
  /-- Accumulator (R17). -/
  a : Byte
  /-- Index register X (R17). -/
  x : Byte
  /-- Index register Y (R17). -/
  y : Byte
  /-- Stack pointer S: the low byte of the next free stack address (R18). -/
  sp : Byte
  /-- Program counter (R21). -/
  pc : Word
  /-- The status flags (R22). -/
  p : Flags
  /-- `nmi_pending` (R25). -/
  nmiPending : Bool
  /-- `irq_pending` (R25). -/
  irqPending : Bool
  /-- The cycle counter, unbounded (R26). -/
  cycles : Nat
  /-- The fault record (R27). -/
  fault : Option Fatal
  /-- MODEL'S OWN (log 6): the cycle count `n` that the last `Step()` returned. -/
  stepCycles : Nat
  /-- RAM, addresses below 65536 (R28). -/
  ram : List Host.Cell
  /-- The BASIC ROM image, offsets below 8192 (R28). -/
  romBasic : List Host.Cell
  /-- The KERNAL ROM image, offsets below 8192 (R28). -/
  romKernal : List Host.Cell
  /-- The CHAR ROM image, offsets below 4096 (R28). -/
  romChar : List Host.Cell
  /-- The processor port's direction register at $0000 (R28). -/
  ddr : Byte
  /-- The processor port's data register at $0001 (R28). -/
  data : Byte
  /-- Color RAM, indexes below 1024 (R29). -/
  color : List (Nat × Nibble)
  /-- MODEL'S OWN (log 5): how many `COLOR_HIGH` draws were taken. -/
  colorDraws : Nat
  /-- The VIC-II (R30). -/
  vic : Vic
  /-- CIA-A (R31). -/
  ciaA : Cia
  /-- CIA-B (R31). -/
  ciaB : Cia
  /-- The keyboard matrix, one byte per column (R32). -/
  keys : Vector Byte 8
  /-- `nmi_line_prev` (R33). -/
  nmiLinePrev : Bool
  /-- `frame_cycles` (R33). -/
  frameCycles : Nat
  /-- The host's pause flag (R33, R187). -/
  paused : Bool
  /-- The host's shutdown request (R33, R188). -/
  shutdown : Bool
  /-- Set when a fatal fault stops the machine (R33, R189). -/
  halted : Bool
  /-- MODEL'S OWN (log 7): the machine loop stands inside a frame (R186). -/
  frameOpen : Bool
  /-- MODEL'S OWN (log 7): the host's events since the last frame, oldest first; the next frame applies them (R190, R194). -/
  events : List KeyEvent
  deriving DecidableEq, Repr

/-- The VIC-II at reset (R34, D10). -/
def Vic.reset : Vic :=
  { vreg := Vector.replicate 47 0, raster := 0, acc := 0, latch := 0, frameAvailable := false }

/-- A CIA at reset (R34, D10): timers $FFFF, everything else 0. -/
def Cia.reset : Cia :=
  { pra := 0, prb := 0, ddra := 0, ddrb := 0
    taLatch := 0xFFFF, taCnt := 0xFFFF, tbLatch := 0xFFFF, tbCnt := 0xFFFF
    cra := 0, crb := 0, icrLatch := 0, icrMask := 0, tod := Vector.replicate 4 0, sdr := 0 }

/-- The last six bytes of the KERNAL test image of 95_test_vectors.md section 1: NMI $FE43, RESET $FCE2, IRQ/BRK $FF48
(log 4). -/
def kernalVectors : List Host.Cell :=
  [(0x1FFA, 0x43), (0x1FFB, 0xFE), (0x1FFC, 0xE2), (0x1FFD, 0xFC), (0x1FFE, 0x48), (0x1FFF, 0xFF)]

/-- The machine after power-on and `reset()` (R34, R197, R198), for the instance of the inputs that logs 1 to 4 name. PC is
the RESET vector of the KERNAL image; `startup` (Startup.lean) computes the same state by the steps of R198. -/
def State.reset : State :=
  { a := Config.aInit, x := Config.xInit, y := Config.yInit, sp := 0xFD, pc := 0xFCE2
    p := { n := false, v := false, d := false, i := true, z := false, c := false }
    nmiPending := false, irqPending := false, cycles := 0, fault := none, stepCycles := 0
    ram := [], romBasic := [], romKernal := kernalVectors, romChar := [], ddr := 0, data := 0
    color := [], colorDraws := 0
    vic := Vic.reset, ciaA := Cia.reset, ciaB := Cia.reset, keys := Vector.replicate 8 0
    nmiLinePrev := false, frameCycles := 0, paused := false, shutdown := false, halted := false
    frameOpen := false, events := [] }

end Sys2Proof.Machine
end

