-- ==== Sys2Proof/Machine/Mem.lean ====
section
/-! DEFINITION. A sparse memory in one canonical form: a list of (address, value) pairs with rising addresses, none of them
equal to the fill value an unlisted address reads as. RAM, the ROM images and color RAM are of this form (R28, R29). -/

namespace Sys2Proof.Machine

/-- A sparse memory of `w`-bit values. `Memory 8` is a list of `Host.Cell`. -/
abbrev Memory (w : Nat) := List (Nat × BitVec w)

/-- The value at an address. -/
def Memory.read {w : Nat} (fill : BitVec w) : Memory w → Nat → BitVec w
  | [], _ => fill
  | (k, u) :: m, a => if a = k then u else Memory.read fill m a

/-- The memory without any entry for an address. -/
def Memory.erase {w : Nat} : Memory w → Nat → Memory w
  | [], _ => []
  | (k, u) :: m, a => if a = k then Memory.erase m a else (k, u) :: Memory.erase m a

/-- The memory with the entry (a, v), in its place by address. -/
def Memory.insert {w : Nat} : Memory w → Nat → BitVec w → Memory w
  | [], a, v => [(a, v)]
  | (k, u) :: m, a, v =>
    if a < k then (a, v) :: (k, u) :: m
    else if a = k then (k, v) :: m
    else (k, u) :: Memory.insert m a v

/-- Store `v` at an address, keeping the canonical form: storing the fill value removes the entry. -/
def Memory.write {w : Nat} (fill : BitVec w) (m : Memory w) (a : Nat) (v : BitVec w) : Memory w :=
  if v = fill then Memory.erase m a else Memory.insert m a v

/-- Canonical from address `lo` on: addresses rise from `lo`, lie below `size`, and no value is the fill value. -/
def Memory.wfFrom {w : Nat} (size : Nat) (fill : BitVec w) : Nat → Memory w → Bool
  | _, [] => true
  | lo, (k, u) :: m =>
    decide (lo ≤ k) && decide (k < size) && decide (u ≠ fill) && Memory.wfFrom size fill (k + 1) m

/-- The canonical form. -/
def Memory.wf {w : Nat} (size : Nat) (fill : BitVec w) (m : Memory w) : Bool := Memory.wfFrom size fill 0 m

/-- The sparse memory of a byte array whose first byte has offset `k` (R193). -/
def Memory.ofBytes {w : Nat} (fill : BitVec w) : Nat → List (BitVec w) → Memory w
  | _, [] => []
  | k, v :: vs => if v = fill then Memory.ofBytes fill (k + 1) vs else (k, v) :: Memory.ofBytes fill (k + 1) vs

/-- Every memory of the state is in canonical form, within its size (R7). -/
def memoriesWf (s : State) : Bool :=
  Memory.wf 65536 Config.ramFill s.ram && Memory.wf 8192 Config.basicFill s.romBasic &&
    Memory.wf 8192 Config.kernalFill s.romKernal && Memory.wf 4096 Config.charFill s.romChar &&
    Memory.wf 1024 Config.colorFill s.color

end Sys2Proof.Machine
end

