-- ==== Sys2Proof/Machine/Cia.lean ====
section
/-! DEFINITION. The CIAs: ports, timers, interrupt control and the keyboard scan (62_cia.md). Both chips run the same
definitions; CIA-A's port B reads the keyboard and is passed in. -/

namespace Sys2Proof.Machine

/-- `CiaLine()`: some latched bit is unmasked (R178). -/
def ciaLine (c : Cia) : Bool := decide (c.icrLatch &&& c.icrMask ≠ 0)

/-- Port A as read: input bits read 1 (R169, R172). -/
def ciaPortA (c : Cia) : Byte := c.pra ||| ~~~c.ddra

/-- Port B of CIA-B as read (R169, R172). -/
def ciaPortB (c : Cia) : Byte := c.prb ||| ~~~c.ddrb

/-- The OR of the key columns whose strobe bit is 0 (R173). -/
def strobedKeys (strobe : Byte) (keys : Vector Byte 8) : Byte :=
  ([0, 1, 2, 3, 4, 5, 6, 7] : List (Fin 8)).foldl
    (fun acc (c : Fin 8) => if strobe.getLsbD c.val then acc else acc ||| keys[c]) 0

/-- Port B of CIA-A as read: a 0 bit for every row with a key down in a strobed column (R173). -/
def keyboardPort (c : Cia) (keys : Vector Byte 8) : Byte := ~~~(strobedKeys (ciaPortA c) keys)

/-- The value an ICR read returns: the pending bits, and bit 7 when one of them is unmasked (R179). -/
def icrValue (c : Cia) : Byte := c.icrLatch.setWidth 8 ||| (if ciaLine c then 0x80 else 0x00)

/-- `CiaRead(cia, i)` (R169, R170); `portB` is what register 1 reads. Only register 13, the ICR, changes state (R179). -/
def ciaRead (portB : Byte) (c : Cia) (i : BitVec 4) : Byte × Cia :=
  match i.toNat with
  | 0 => (ciaPortA c, c)
  | 1 => (portB, c)
  | 2 => (c.ddra, c)
  | 3 => (c.ddrb, c)
  | 4 => (c.taCnt.extractLsb' 0 8, c)
  | 5 => (c.taCnt.extractLsb' 8 8, c)
  | 6 => (c.tbCnt.extractLsb' 0 8, c)
  | 7 => (c.tbCnt.extractLsb' 8 8, c)
  | 8 => (c.tod[0], c)
  | 9 => (c.tod[1], c)
  | 10 => (c.tod[2], c)
  | 11 => (c.tod[3], c)
  | 12 => (c.sdr, c)
  | 13 => (icrValue c, { c with icrLatch := 0 })
  | 14 => (c.cra, c)
  | _ => (c.crb, c)

/-- The latch with a new low byte (R169, registers 4 and 6). -/
def latchLow (latch : Word) (v : Byte) : Word := latch.extractLsb' 8 8 ++ v

/-- The latch with a new high byte (R176, registers 5 and 7). -/
def latchHigh (latch : Word) (v : Byte) : Word := v ++ latch.extractLsb' 0 8

/-- The counter after a high-byte write: a stopped timer takes the new latch (R176). -/
def afterHighWrite (control : Byte) (latch cnt : Word) : Word := if control.getLsbD 0 then cnt else latch

/-- The counter after a control write: bit 4 forces a load (R175). -/
def afterControlWrite (v : Byte) (latch cnt : Word) : Word := if v.getLsbD 4 then latch else cnt

/-- The mask after an ICR write: bit 7 says whether the given bits are set or cleared (R180). -/
def icrMaskWrite (mask : BitVec 5) (v : Byte) : BitVec 5 :=
  if v.getLsbD 7 then mask ||| v.setWidth 5 else mask &&& ~~~(v.setWidth 5)

/-- `CiaWrite(cia, i, v)` (R169, R171, R175, R176, R180). -/
def ciaWrite (c : Cia) (i : BitVec 4) (v : Byte) : Cia :=
  match i.toNat with
  | 0 => { c with pra := v }
  | 1 => { c with prb := v }
  | 2 => { c with ddra := v }
  | 3 => { c with ddrb := v }
  | 4 => { c with taLatch := latchLow c.taLatch v }
  | 5 => { c with taLatch := latchHigh c.taLatch v, taCnt := afterHighWrite c.cra (latchHigh c.taLatch v) c.taCnt }
  | 6 => { c with tbLatch := latchLow c.tbLatch v }
  | 7 => { c with tbLatch := latchHigh c.tbLatch v, tbCnt := afterHighWrite c.crb (latchHigh c.tbLatch v) c.tbCnt }
  | 8 => { c with tod := c.tod.set 0 v }
  | 9 => { c with tod := c.tod.set 1 v }
  | 10 => { c with tod := c.tod.set 2 v }
  | 11 => { c with tod := c.tod.set 3 v }
  | 12 => { c with sdr := v }
  | 13 => { c with icrMask := icrMaskWrite c.icrMask v }
  | 14 => { c with cra := v &&& 0xEF, taCnt := afterControlWrite v c.taLatch c.taCnt }
  | _ => { c with crb := v &&& 0xEF, tbCnt := afterControlWrite v c.tbLatch c.tbCnt }

/-- Timer A counts: started, input φ2 (R175, R177). -/
def countsA (c : Cia) : Bool := c.cra.getLsbD 0 && !c.cra.getLsbD 5

/-- Timer B counts: started, input φ2, that is bits 6 and 5 both 0 (R175, R177, D24). -/
def countsB (c : Cia) : Bool := c.crb.getLsbD 0 && !c.crb.getLsbD 5 && !c.crb.getLsbD 6

/-- The control register after an underflow: a one-shot timer stops (R177). -/
def stopOneShot (control : Byte) : Byte := if control.getLsbD 3 then control &&& 0xFE else control

/-- Timer A's part of `CiaTick(n)` (R177): underflow when `n` exceeds the counter. -/
def tickTimerA (n : Nat) (c : Cia) : Cia :=
  if countsA c then
    if c.taCnt.toNat < n then
      { c with taCnt := c.taLatch, icrLatch := c.icrLatch ||| 1, cra := stopOneShot c.cra }
    else { c with taCnt := c.taCnt - BitVec.ofNat 16 n }
  else c

/-- Timer B's part of `CiaTick(n)` (R177). -/
def tickTimerB (n : Nat) (c : Cia) : Cia :=
  if countsB c then
    if c.tbCnt.toNat < n then
      { c with tbCnt := c.tbLatch, icrLatch := c.icrLatch ||| 2, crb := stopOneShot c.crb }
    else { c with tbCnt := c.tbCnt - BitVec.ofNat 16 n }
  else c

/-- `CiaTick(n)` (R177): timer A, then timer B. -/
def ciaTick (n : Nat) (c : Cia) : Cia := tickTimerB n (tickTimerA n c)

end Sys2Proof.Machine
end

