-- ==== Sys2Proof/Syntax.lean ====
section
/-! DEFINITION. The instruction set as syntax: one constructor per row of spec/opcode_table.json (R57, R75), that is one per
opcode byte. The constructor names the mnemonic and the addressing mode; its argument is the operand (R60): an immediate or
zero-page byte `b`, an absolute or pointer address `w`, or a branch offset `off`. -/

namespace Sys2Proof

/-- The 56 mnemonics (R79 to R137). -/
inductive Mnemonic where
  | LDA | LDX | LDY | STA | STX | STY | TAX | TAY
  | TXA | TYA | TSX | TXS | PHA | PHP | PLA | PLP
  | ADC | SBC | CMP | CPX | CPY | INC | DEC | INX
  | INY | DEX | DEY | AND | ORA | EOR | BIT | ASL
  | LSR | ROL | ROR | JMP | JSR | RTS | RTI | BRK
  | BPL | BMI | BVC | BVS | BCC | BCS | BNE | BEQ
  | CLC | SEC | CLD | SED | CLI | SEI | CLV | NOP
  deriving DecidableEq, Repr

/-- The 13 addressing modes (R61 to R73). -/
inductive Mode where
  | implied | accumulator | immediate | zeroPage | zeroPageX | zeroPageY | absolute | absoluteX | absoluteY
  | indirect | indirectX | indirectY | relative
  deriving DecidableEq, Repr

/-- The 151 instructions (R75), in the order of the rules R79 to R137. -/
inductive Instr where
  | ldaImm (b : Byte) | ldaZp (b : Byte) | ldaZpX (b : Byte) | ldaAbs (w : Word) | ldaAbsX (w : Word) | ldaAbsY (w : Word) | ldaIndX (b : Byte) | ldaIndY (b : Byte)
  | ldxImm (b : Byte) | ldxZp (b : Byte) | ldxZpY (b : Byte) | ldxAbs (w : Word) | ldxAbsY (w : Word)
  | ldyImm (b : Byte) | ldyZp (b : Byte) | ldyZpX (b : Byte) | ldyAbs (w : Word) | ldyAbsX (w : Word)
  | staZp (b : Byte) | staZpX (b : Byte) | staAbs (w : Word) | staAbsX (w : Word) | staAbsY (w : Word) | staIndX (b : Byte) | staIndY (b : Byte)
  | stxZp (b : Byte) | stxZpY (b : Byte) | stxAbs (w : Word)
  | styZp (b : Byte) | styZpX (b : Byte) | styAbs (w : Word)
  | tax
  | tay
  | txa
  | tya
  | tsx
  | txs
  | pha
  | php
  | pla
  | plp
  | adcImm (b : Byte) | adcZp (b : Byte) | adcZpX (b : Byte) | adcAbs (w : Word) | adcAbsX (w : Word) | adcAbsY (w : Word) | adcIndX (b : Byte) | adcIndY (b : Byte)
  | sbcImm (b : Byte) | sbcZp (b : Byte) | sbcZpX (b : Byte) | sbcAbs (w : Word) | sbcAbsX (w : Word) | sbcAbsY (w : Word) | sbcIndX (b : Byte) | sbcIndY (b : Byte)
  | cmpImm (b : Byte) | cmpZp (b : Byte) | cmpZpX (b : Byte) | cmpAbs (w : Word) | cmpAbsX (w : Word) | cmpAbsY (w : Word) | cmpIndX (b : Byte) | cmpIndY (b : Byte)
  | cpxImm (b : Byte) | cpxZp (b : Byte) | cpxAbs (w : Word)
  | cpyImm (b : Byte) | cpyZp (b : Byte) | cpyAbs (w : Word)
  | incZp (b : Byte) | incZpX (b : Byte) | incAbs (w : Word) | incAbsX (w : Word)
  | decZp (b : Byte) | decZpX (b : Byte) | decAbs (w : Word) | decAbsX (w : Word)
  | inx
  | iny
  | dex
  | dey
  | andImm (b : Byte) | andZp (b : Byte) | andZpX (b : Byte) | andAbs (w : Word) | andAbsX (w : Word) | andAbsY (w : Word) | andIndX (b : Byte) | andIndY (b : Byte)
  | oraImm (b : Byte) | oraZp (b : Byte) | oraZpX (b : Byte) | oraAbs (w : Word) | oraAbsX (w : Word) | oraAbsY (w : Word) | oraIndX (b : Byte) | oraIndY (b : Byte)
  | eorImm (b : Byte) | eorZp (b : Byte) | eorZpX (b : Byte) | eorAbs (w : Word) | eorAbsX (w : Word) | eorAbsY (w : Word) | eorIndX (b : Byte) | eorIndY (b : Byte)
  | bitZp (b : Byte) | bitAbs (w : Word)
  | aslAcc | aslZp (b : Byte) | aslZpX (b : Byte) | aslAbs (w : Word) | aslAbsX (w : Word)
  | lsrAcc | lsrZp (b : Byte) | lsrZpX (b : Byte) | lsrAbs (w : Word) | lsrAbsX (w : Word)
  | rolAcc | rolZp (b : Byte) | rolZpX (b : Byte) | rolAbs (w : Word) | rolAbsX (w : Word)
  | rorAcc | rorZp (b : Byte) | rorZpX (b : Byte) | rorAbs (w : Word) | rorAbsX (w : Word)
  | jmpAbs (w : Word) | jmpInd (w : Word)
  | jsrAbs (w : Word)
  | rts
  | rti
  | brk
  | bpl (off : Int)
  | bmi (off : Int)
  | bvc (off : Int)
  | bvs (off : Int)
  | bcc (off : Int)
  | bcs (off : Int)
  | bne (off : Int)
  | beq (off : Int)
  | clc
  | sec
  | cld
  | sed
  | cli
  | sei
  | clv
  | nop
  deriving DecidableEq, Repr

/-- The mnemonic of an instruction: column "mnemonic" of the opcode table. -/
def Instr.mnemonic : Instr → Mnemonic
  | .ldaImm _ | .ldaZp _ | .ldaZpX _ | .ldaAbs _ | .ldaAbsX _ | .ldaAbsY _ | .ldaIndX _ | .ldaIndY _ => .LDA
  | .ldxImm _ | .ldxZp _ | .ldxZpY _ | .ldxAbs _ | .ldxAbsY _ => .LDX
  | .ldyImm _ | .ldyZp _ | .ldyZpX _ | .ldyAbs _ | .ldyAbsX _ => .LDY
  | .staZp _ | .staZpX _ | .staAbs _ | .staAbsX _ | .staAbsY _ | .staIndX _ | .staIndY _ => .STA
  | .stxZp _ | .stxZpY _ | .stxAbs _ => .STX
  | .styZp _ | .styZpX _ | .styAbs _ => .STY
  | .tax => .TAX
  | .tay => .TAY
  | .txa => .TXA
  | .tya => .TYA
  | .tsx => .TSX
  | .txs => .TXS
  | .pha => .PHA
  | .php => .PHP
  | .pla => .PLA
  | .plp => .PLP
  | .adcImm _ | .adcZp _ | .adcZpX _ | .adcAbs _ | .adcAbsX _ | .adcAbsY _ | .adcIndX _ | .adcIndY _ => .ADC
  | .sbcImm _ | .sbcZp _ | .sbcZpX _ | .sbcAbs _ | .sbcAbsX _ | .sbcAbsY _ | .sbcIndX _ | .sbcIndY _ => .SBC
  | .cmpImm _ | .cmpZp _ | .cmpZpX _ | .cmpAbs _ | .cmpAbsX _ | .cmpAbsY _ | .cmpIndX _ | .cmpIndY _ => .CMP
  | .cpxImm _ | .cpxZp _ | .cpxAbs _ => .CPX
  | .cpyImm _ | .cpyZp _ | .cpyAbs _ => .CPY
  | .incZp _ | .incZpX _ | .incAbs _ | .incAbsX _ => .INC
  | .decZp _ | .decZpX _ | .decAbs _ | .decAbsX _ => .DEC
  | .inx => .INX
  | .iny => .INY
  | .dex => .DEX
  | .dey => .DEY
  | .andImm _ | .andZp _ | .andZpX _ | .andAbs _ | .andAbsX _ | .andAbsY _ | .andIndX _ | .andIndY _ => .AND
  | .oraImm _ | .oraZp _ | .oraZpX _ | .oraAbs _ | .oraAbsX _ | .oraAbsY _ | .oraIndX _ | .oraIndY _ => .ORA
  | .eorImm _ | .eorZp _ | .eorZpX _ | .eorAbs _ | .eorAbsX _ | .eorAbsY _ | .eorIndX _ | .eorIndY _ => .EOR
  | .bitZp _ | .bitAbs _ => .BIT
  | .aslAcc | .aslZp _ | .aslZpX _ | .aslAbs _ | .aslAbsX _ => .ASL
  | .lsrAcc | .lsrZp _ | .lsrZpX _ | .lsrAbs _ | .lsrAbsX _ => .LSR
  | .rolAcc | .rolZp _ | .rolZpX _ | .rolAbs _ | .rolAbsX _ => .ROL
  | .rorAcc | .rorZp _ | .rorZpX _ | .rorAbs _ | .rorAbsX _ => .ROR
  | .jmpAbs _ | .jmpInd _ => .JMP
  | .jsrAbs _ => .JSR
  | .rts => .RTS
  | .rti => .RTI
  | .brk => .BRK
  | .bpl _ => .BPL
  | .bmi _ => .BMI
  | .bvc _ => .BVC
  | .bvs _ => .BVS
  | .bcc _ => .BCC
  | .bcs _ => .BCS
  | .bne _ => .BNE
  | .beq _ => .BEQ
  | .clc => .CLC
  | .sec => .SEC
  | .cld => .CLD
  | .sed => .SED
  | .cli => .CLI
  | .sei => .SEI
  | .clv => .CLV
  | .nop => .NOP

/-- The addressing mode of an instruction: column "mode" of the opcode table. -/
def Instr.mode : Instr → Mode
  | .tax | .tay | .txa | .tya | .tsx | .txs | .pha | .php
  | .pla | .plp | .inx | .iny | .dex | .dey | .rts | .rti
  | .brk | .clc | .sec | .cld | .sed | .cli | .sei | .clv
  | .nop => .implied
  | .aslAcc | .lsrAcc | .rolAcc | .rorAcc => .accumulator
  | .ldaImm _ | .ldxImm _ | .ldyImm _ | .adcImm _ | .sbcImm _ | .cmpImm _ | .cpxImm _ | .cpyImm _
  | .andImm _ | .oraImm _ | .eorImm _ => .immediate
  | .ldaZp _ | .ldxZp _ | .ldyZp _ | .staZp _ | .stxZp _ | .styZp _ | .adcZp _ | .sbcZp _
  | .cmpZp _ | .cpxZp _ | .cpyZp _ | .incZp _ | .decZp _ | .andZp _ | .oraZp _ | .eorZp _
  | .bitZp _ | .aslZp _ | .lsrZp _ | .rolZp _ | .rorZp _ => .zeroPage
  | .ldaZpX _ | .ldyZpX _ | .staZpX _ | .styZpX _ | .adcZpX _ | .sbcZpX _ | .cmpZpX _ | .incZpX _
  | .decZpX _ | .andZpX _ | .oraZpX _ | .eorZpX _ | .aslZpX _ | .lsrZpX _ | .rolZpX _ | .rorZpX _ => .zeroPageX
  | .ldxZpY _ | .stxZpY _ => .zeroPageY
  | .ldaAbs _ | .ldxAbs _ | .ldyAbs _ | .staAbs _ | .stxAbs _ | .styAbs _ | .adcAbs _ | .sbcAbs _
  | .cmpAbs _ | .cpxAbs _ | .cpyAbs _ | .incAbs _ | .decAbs _ | .andAbs _ | .oraAbs _ | .eorAbs _
  | .bitAbs _ | .aslAbs _ | .lsrAbs _ | .rolAbs _ | .rorAbs _ | .jmpAbs _ | .jsrAbs _ => .absolute
  | .ldaAbsX _ | .ldyAbsX _ | .staAbsX _ | .adcAbsX _ | .sbcAbsX _ | .cmpAbsX _ | .incAbsX _ | .decAbsX _
  | .andAbsX _ | .oraAbsX _ | .eorAbsX _ | .aslAbsX _ | .lsrAbsX _ | .rolAbsX _ | .rorAbsX _ => .absoluteX
  | .ldaAbsY _ | .ldxAbsY _ | .staAbsY _ | .adcAbsY _ | .sbcAbsY _ | .cmpAbsY _ | .andAbsY _ | .oraAbsY _
  | .eorAbsY _ => .absoluteY
  | .jmpInd _ => .indirect
  | .ldaIndX _ | .staIndX _ | .adcIndX _ | .sbcIndX _ | .cmpIndX _ | .andIndX _ | .oraIndX _ | .eorIndX _ => .indirectX
  | .ldaIndY _ | .staIndY _ | .adcIndY _ | .sbcIndY _ | .cmpIndY _ | .andIndY _ | .oraIndY _ | .eorIndY _ => .indirectY
  | .bpl _ | .bmi _ | .bvc _ | .bvs _ | .bcc _ | .bcs _ | .bne _ | .beq _ => .relative

end Sys2Proof
end

