-- ==== Sys2Proof/WellFormed.lean ====
section
/-! DEFINITION. Which terms of `Instr` are instructions. Bytes and words fill their operand fields by type (R60); the one
field with a range narrower than its type is a branch offset, which must lie in -128..+127 (R60, R73, R78). -/

namespace Sys2Proof

/-- The range of a branch offset (R60, R78). -/
def offsetInRange (off : Int) : Bool := decide (-128 ≤ off) && decide (off ≤ 127)

/-- The well-formed instructions: those that have an encoding. -/
def Instr.wellFormed : Instr → Bool
  | .ldaImm _ | .ldaZp _ | .ldaZpX _ | .ldaAbs _ | .ldaAbsX _ | .ldaAbsY _ | .ldaIndX _ | .ldaIndY _
  | .ldxImm _ | .ldxZp _ | .ldxZpY _ | .ldxAbs _ | .ldxAbsY _ | .ldyImm _ | .ldyZp _ | .ldyZpX _
  | .ldyAbs _ | .ldyAbsX _ | .staZp _ | .staZpX _ | .staAbs _ | .staAbsX _ | .staAbsY _ | .staIndX _
  | .staIndY _ | .stxZp _ | .stxZpY _ | .stxAbs _ | .styZp _ | .styZpX _ | .styAbs _ | .tax
  | .tay | .txa | .tya | .tsx | .txs | .pha | .php | .pla
  | .plp | .adcImm _ | .adcZp _ | .adcZpX _ | .adcAbs _ | .adcAbsX _ | .adcAbsY _ | .adcIndX _
  | .adcIndY _ | .sbcImm _ | .sbcZp _ | .sbcZpX _ | .sbcAbs _ | .sbcAbsX _ | .sbcAbsY _ | .sbcIndX _
  | .sbcIndY _ | .cmpImm _ | .cmpZp _ | .cmpZpX _ | .cmpAbs _ | .cmpAbsX _ | .cmpAbsY _ | .cmpIndX _
  | .cmpIndY _ | .cpxImm _ | .cpxZp _ | .cpxAbs _ | .cpyImm _ | .cpyZp _ | .cpyAbs _ | .incZp _
  | .incZpX _ | .incAbs _ | .incAbsX _ | .decZp _ | .decZpX _ | .decAbs _ | .decAbsX _ | .inx
  | .iny | .dex | .dey | .andImm _ | .andZp _ | .andZpX _ | .andAbs _ | .andAbsX _
  | .andAbsY _ | .andIndX _ | .andIndY _ | .oraImm _ | .oraZp _ | .oraZpX _ | .oraAbs _ | .oraAbsX _
  | .oraAbsY _ | .oraIndX _ | .oraIndY _ | .eorImm _ | .eorZp _ | .eorZpX _ | .eorAbs _ | .eorAbsX _
  | .eorAbsY _ | .eorIndX _ | .eorIndY _ | .bitZp _ | .bitAbs _ | .aslAcc | .aslZp _ | .aslZpX _
  | .aslAbs _ | .aslAbsX _ | .lsrAcc | .lsrZp _ | .lsrZpX _ | .lsrAbs _ | .lsrAbsX _ | .rolAcc
  | .rolZp _ | .rolZpX _ | .rolAbs _ | .rolAbsX _ | .rorAcc | .rorZp _ | .rorZpX _ | .rorAbs _
  | .rorAbsX _ | .jmpAbs _ | .jmpInd _ | .jsrAbs _ | .rts | .rti | .brk | .clc
  | .sec | .cld | .sed | .cli | .sei | .clv | .nop => true
  | .bpl off | .bmi off | .bvc off | .bvs off | .bcc off | .bcs off | .bne off | .beq off => offsetInRange off

end Sys2Proof
end

