-- ==== Sys2Proof/Decode.lean ====
section
/-! DEFINITION. Decoding, total on any bytes (R57 to R60, R75, R76), and the encoder written from the same map. The opcode map
is a list of rows, one list per row (high nibble) of the map of R75; a byte with no row is illegal and is rejected. -/

namespace Sys2Proof

/-- The 16-bit value whose low byte is `lo` and whose high byte is `hi` (R47). -/
def mkWord (lo hi : Byte) : Word := hi ++ lo

/-- The low byte of a word (R47). -/
def loByte (w : Word) : Byte := w.extractLsb' 0 8

/-- The high byte of a word (R47). -/
def hiByte (w : Word) : Byte := w.extractLsb' 8 8

/-- `page(a) = a & $FF00` (R9). -/
def page (w : Word) : Word := w &&& 0xFF00

/-- `sext_8(v)`: the signed value of a byte (R9). -/
def sext8 (v : Byte) : Int := if v.msb then (v.toNat : Int) - 256 else v.toNat

/-- What an opcode byte selects (R57): a complete instruction (format F1), an instruction that takes one operand byte (F2),
or one that takes a 16-bit operand (F3). -/
inductive Shape where
  | f1 (i : Instr)
  | f2 (k : Byte → Instr)
  | f3 (k : Word → Instr)

/-- The length of an instruction of that shape, in bytes (R58). -/
def Shape.length : Shape → Nat
  | .f1 _ => 1
  | .f2 _ => 2
  | .f3 _ => 3

/-- Row 0 of the map of R75: opcodes $00 to $0F. -/
def opcodeRow0 : List (Byte × Shape) :=
  [(0x00, .f1 .brk),
   (0x01, .f2 .oraIndX),
   (0x05, .f2 .oraZp),
   (0x06, .f2 .aslZp),
   (0x08, .f1 .php),
   (0x09, .f2 .oraImm),
   (0x0A, .f1 .aslAcc),
   (0x0D, .f3 .oraAbs),
   (0x0E, .f3 .aslAbs)]

/-- Row 1 of the map of R75: opcodes $10 to $1F. -/
def opcodeRow1 : List (Byte × Shape) :=
  [(0x10, .f2 (fun b => .bpl (sext8 b))),
   (0x11, .f2 .oraIndY),
   (0x15, .f2 .oraZpX),
   (0x16, .f2 .aslZpX),
   (0x18, .f1 .clc),
   (0x19, .f3 .oraAbsY),
   (0x1D, .f3 .oraAbsX),
   (0x1E, .f3 .aslAbsX)]

/-- Row 2 of the map of R75: opcodes $20 to $2F. -/
def opcodeRow2 : List (Byte × Shape) :=
  [(0x20, .f3 .jsrAbs),
   (0x21, .f2 .andIndX),
   (0x24, .f2 .bitZp),
   (0x25, .f2 .andZp),
   (0x26, .f2 .rolZp),
   (0x28, .f1 .plp),
   (0x29, .f2 .andImm),
   (0x2A, .f1 .rolAcc),
   (0x2C, .f3 .bitAbs),
   (0x2D, .f3 .andAbs),
   (0x2E, .f3 .rolAbs)]

/-- Row 3 of the map of R75: opcodes $30 to $3F. -/
def opcodeRow3 : List (Byte × Shape) :=
  [(0x30, .f2 (fun b => .bmi (sext8 b))),
   (0x31, .f2 .andIndY),
   (0x35, .f2 .andZpX),
   (0x36, .f2 .rolZpX),
   (0x38, .f1 .sec),
   (0x39, .f3 .andAbsY),
   (0x3D, .f3 .andAbsX),
   (0x3E, .f3 .rolAbsX)]

/-- Row 4 of the map of R75: opcodes $40 to $4F. -/
def opcodeRow4 : List (Byte × Shape) :=
  [(0x40, .f1 .rti),
   (0x41, .f2 .eorIndX),
   (0x45, .f2 .eorZp),
   (0x46, .f2 .lsrZp),
   (0x48, .f1 .pha),
   (0x49, .f2 .eorImm),
   (0x4A, .f1 .lsrAcc),
   (0x4C, .f3 .jmpAbs),
   (0x4D, .f3 .eorAbs),
   (0x4E, .f3 .lsrAbs)]

/-- Row 5 of the map of R75: opcodes $50 to $5F. -/
def opcodeRow5 : List (Byte × Shape) :=
  [(0x50, .f2 (fun b => .bvc (sext8 b))),
   (0x51, .f2 .eorIndY),
   (0x55, .f2 .eorZpX),
   (0x56, .f2 .lsrZpX),
   (0x58, .f1 .cli),
   (0x59, .f3 .eorAbsY),
   (0x5D, .f3 .eorAbsX),
   (0x5E, .f3 .lsrAbsX)]

/-- Row 6 of the map of R75: opcodes $60 to $6F. -/
def opcodeRow6 : List (Byte × Shape) :=
  [(0x60, .f1 .rts),
   (0x61, .f2 .adcIndX),
   (0x65, .f2 .adcZp),
   (0x66, .f2 .rorZp),
   (0x68, .f1 .pla),
   (0x69, .f2 .adcImm),
   (0x6A, .f1 .rorAcc),
   (0x6C, .f3 .jmpInd),
   (0x6D, .f3 .adcAbs),
   (0x6E, .f3 .rorAbs)]

/-- Row 7 of the map of R75: opcodes $70 to $7F. -/
def opcodeRow7 : List (Byte × Shape) :=
  [(0x70, .f2 (fun b => .bvs (sext8 b))),
   (0x71, .f2 .adcIndY),
   (0x75, .f2 .adcZpX),
   (0x76, .f2 .rorZpX),
   (0x78, .f1 .sei),
   (0x79, .f3 .adcAbsY),
   (0x7D, .f3 .adcAbsX),
   (0x7E, .f3 .rorAbsX)]

/-- Row 8 of the map of R75: opcodes $80 to $8F. -/
def opcodeRow8 : List (Byte × Shape) :=
  [(0x81, .f2 .staIndX),
   (0x84, .f2 .styZp),
   (0x85, .f2 .staZp),
   (0x86, .f2 .stxZp),
   (0x88, .f1 .dey),
   (0x8A, .f1 .txa),
   (0x8C, .f3 .styAbs),
   (0x8D, .f3 .staAbs),
   (0x8E, .f3 .stxAbs)]

/-- Row 9 of the map of R75: opcodes $90 to $9F. -/
def opcodeRow9 : List (Byte × Shape) :=
  [(0x90, .f2 (fun b => .bcc (sext8 b))),
   (0x91, .f2 .staIndY),
   (0x94, .f2 .styZpX),
   (0x95, .f2 .staZpX),
   (0x96, .f2 .stxZpY),
   (0x98, .f1 .tya),
   (0x99, .f3 .staAbsY),
   (0x9A, .f1 .txs),
   (0x9D, .f3 .staAbsX)]

/-- Row A of the map of R75: opcodes $A0 to $AF. -/
def opcodeRowA : List (Byte × Shape) :=
  [(0xA0, .f2 .ldyImm),
   (0xA1, .f2 .ldaIndX),
   (0xA2, .f2 .ldxImm),
   (0xA4, .f2 .ldyZp),
   (0xA5, .f2 .ldaZp),
   (0xA6, .f2 .ldxZp),
   (0xA8, .f1 .tay),
   (0xA9, .f2 .ldaImm),
   (0xAA, .f1 .tax),
   (0xAC, .f3 .ldyAbs),
   (0xAD, .f3 .ldaAbs),
   (0xAE, .f3 .ldxAbs)]

/-- Row B of the map of R75: opcodes $B0 to $BF. -/
def opcodeRowB : List (Byte × Shape) :=
  [(0xB0, .f2 (fun b => .bcs (sext8 b))),
   (0xB1, .f2 .ldaIndY),
   (0xB4, .f2 .ldyZpX),
   (0xB5, .f2 .ldaZpX),
   (0xB6, .f2 .ldxZpY),
   (0xB8, .f1 .clv),
   (0xB9, .f3 .ldaAbsY),
   (0xBA, .f1 .tsx),
   (0xBC, .f3 .ldyAbsX),
   (0xBD, .f3 .ldaAbsX),
   (0xBE, .f3 .ldxAbsY)]

/-- Row C of the map of R75: opcodes $C0 to $CF. -/
def opcodeRowC : List (Byte × Shape) :=
  [(0xC0, .f2 .cpyImm),
   (0xC1, .f2 .cmpIndX),
   (0xC4, .f2 .cpyZp),
   (0xC5, .f2 .cmpZp),
   (0xC6, .f2 .decZp),
   (0xC8, .f1 .iny),
   (0xC9, .f2 .cmpImm),
   (0xCA, .f1 .dex),
   (0xCC, .f3 .cpyAbs),
   (0xCD, .f3 .cmpAbs),
   (0xCE, .f3 .decAbs)]

/-- Row D of the map of R75: opcodes $D0 to $DF. -/
def opcodeRowD : List (Byte × Shape) :=
  [(0xD0, .f2 (fun b => .bne (sext8 b))),
   (0xD1, .f2 .cmpIndY),
   (0xD5, .f2 .cmpZpX),
   (0xD6, .f2 .decZpX),
   (0xD8, .f1 .cld),
   (0xD9, .f3 .cmpAbsY),
   (0xDD, .f3 .cmpAbsX),
   (0xDE, .f3 .decAbsX)]

/-- Row E of the map of R75: opcodes $E0 to $EF. -/
def opcodeRowE : List (Byte × Shape) :=
  [(0xE0, .f2 .cpxImm),
   (0xE1, .f2 .sbcIndX),
   (0xE4, .f2 .cpxZp),
   (0xE5, .f2 .sbcZp),
   (0xE6, .f2 .incZp),
   (0xE8, .f1 .inx),
   (0xE9, .f2 .sbcImm),
   (0xEA, .f1 .nop),
   (0xEC, .f3 .cpxAbs),
   (0xED, .f3 .sbcAbs),
   (0xEE, .f3 .incAbs)]

/-- Row F of the map of R75: opcodes $F0 to $FF. -/
def opcodeRowF : List (Byte × Shape) :=
  [(0xF0, .f2 (fun b => .beq (sext8 b))),
   (0xF1, .f2 .sbcIndY),
   (0xF5, .f2 .sbcZpX),
   (0xF6, .f2 .incZpX),
   (0xF8, .f1 .sed),
   (0xF9, .f3 .sbcAbsY),
   (0xFD, .f3 .sbcAbsX),
   (0xFE, .f3 .incAbsX)]

/-- The opcode map (R75). -/
def opcodeMap : List (Byte × Shape) :=
  opcodeRow0 ++ opcodeRow1 ++ opcodeRow2 ++ opcodeRow3 ++
  opcodeRow4 ++ opcodeRow5 ++ opcodeRow6 ++ opcodeRow7 ++
  opcodeRow8 ++ opcodeRow9 ++ opcodeRowA ++ opcodeRowB ++
  opcodeRowC ++ opcodeRowD ++ opcodeRowE ++ opcodeRowF

/-- The row of an opcode byte in the map; none for an illegal opcode (R76). -/
def lookupShape (op : Byte) : Option Shape := (opcodeMap.find? (fun r => r.1 == op)).map Prod.snd

/-- Decode the instruction at the head of a byte list: the instruction and the bytes after it. It answers none for an
illegal opcode (R76) and for a list that ends inside the instruction. -/
def decode : List Byte → Option (Instr × List Byte)
  | [] => none
  | op :: rest =>
    match lookupShape op, rest with
    | none, _ => none
    | some (.f1 i), rest => some (i, rest)
    | some (.f2 k), b1 :: rest => some (k b1, rest)
    | some (.f3 k), b1 :: b2 :: rest => some (k (mkWord b1 b2), rest)
    | some (.f2 _), [] => none
    | some (.f3 _), [] => none
    | some (.f3 _), [_] => none

/-- The byte of a branch offset (R60, R78). -/
def offsetByte (off : Int) : Byte := BitVec.ofInt 8 off

/-- An F3 instruction's bytes: opcode, low byte, high byte (R57, R47). -/
def bytes3 (op : Byte) (w : Word) : List Byte := [op, loByte w, hiByte w]

/-- The bytes of an instruction (R57, R75). A branch offset outside -128..+127 has no encoding; `wellFormed` refuses it. -/
def encode : Instr → List Byte
  | .ldaImm b => [0xA9, b]
  | .ldaZp b => [0xA5, b]
  | .ldaZpX b => [0xB5, b]
  | .ldaAbs w => bytes3 0xAD w
  | .ldaAbsX w => bytes3 0xBD w
  | .ldaAbsY w => bytes3 0xB9 w
  | .ldaIndX b => [0xA1, b]
  | .ldaIndY b => [0xB1, b]
  | .ldxImm b => [0xA2, b]
  | .ldxZp b => [0xA6, b]
  | .ldxZpY b => [0xB6, b]
  | .ldxAbs w => bytes3 0xAE w
  | .ldxAbsY w => bytes3 0xBE w
  | .ldyImm b => [0xA0, b]
  | .ldyZp b => [0xA4, b]
  | .ldyZpX b => [0xB4, b]
  | .ldyAbs w => bytes3 0xAC w
  | .ldyAbsX w => bytes3 0xBC w
  | .staZp b => [0x85, b]
  | .staZpX b => [0x95, b]
  | .staAbs w => bytes3 0x8D w
  | .staAbsX w => bytes3 0x9D w
  | .staAbsY w => bytes3 0x99 w
  | .staIndX b => [0x81, b]
  | .staIndY b => [0x91, b]
  | .stxZp b => [0x86, b]
  | .stxZpY b => [0x96, b]
  | .stxAbs w => bytes3 0x8E w
  | .styZp b => [0x84, b]
  | .styZpX b => [0x94, b]
  | .styAbs w => bytes3 0x8C w
  | .tax => [0xAA]
  | .tay => [0xA8]
  | .txa => [0x8A]
  | .tya => [0x98]
  | .tsx => [0xBA]
  | .txs => [0x9A]
  | .pha => [0x48]
  | .php => [0x08]
  | .pla => [0x68]
  | .plp => [0x28]
  | .adcImm b => [0x69, b]
  | .adcZp b => [0x65, b]
  | .adcZpX b => [0x75, b]
  | .adcAbs w => bytes3 0x6D w
  | .adcAbsX w => bytes3 0x7D w
  | .adcAbsY w => bytes3 0x79 w
  | .adcIndX b => [0x61, b]
  | .adcIndY b => [0x71, b]
  | .sbcImm b => [0xE9, b]
  | .sbcZp b => [0xE5, b]
  | .sbcZpX b => [0xF5, b]
  | .sbcAbs w => bytes3 0xED w
  | .sbcAbsX w => bytes3 0xFD w
  | .sbcAbsY w => bytes3 0xF9 w
  | .sbcIndX b => [0xE1, b]
  | .sbcIndY b => [0xF1, b]
  | .cmpImm b => [0xC9, b]
  | .cmpZp b => [0xC5, b]
  | .cmpZpX b => [0xD5, b]
  | .cmpAbs w => bytes3 0xCD w
  | .cmpAbsX w => bytes3 0xDD w
  | .cmpAbsY w => bytes3 0xD9 w
  | .cmpIndX b => [0xC1, b]
  | .cmpIndY b => [0xD1, b]
  | .cpxImm b => [0xE0, b]
  | .cpxZp b => [0xE4, b]
  | .cpxAbs w => bytes3 0xEC w
  | .cpyImm b => [0xC0, b]
  | .cpyZp b => [0xC4, b]
  | .cpyAbs w => bytes3 0xCC w
  | .incZp b => [0xE6, b]
  | .incZpX b => [0xF6, b]
  | .incAbs w => bytes3 0xEE w
  | .incAbsX w => bytes3 0xFE w
  | .decZp b => [0xC6, b]
  | .decZpX b => [0xD6, b]
  | .decAbs w => bytes3 0xCE w
  | .decAbsX w => bytes3 0xDE w
  | .inx => [0xE8]
  | .iny => [0xC8]
  | .dex => [0xCA]
  | .dey => [0x88]
  | .andImm b => [0x29, b]
  | .andZp b => [0x25, b]
  | .andZpX b => [0x35, b]
  | .andAbs w => bytes3 0x2D w
  | .andAbsX w => bytes3 0x3D w
  | .andAbsY w => bytes3 0x39 w
  | .andIndX b => [0x21, b]
  | .andIndY b => [0x31, b]
  | .oraImm b => [0x09, b]
  | .oraZp b => [0x05, b]
  | .oraZpX b => [0x15, b]
  | .oraAbs w => bytes3 0x0D w
  | .oraAbsX w => bytes3 0x1D w
  | .oraAbsY w => bytes3 0x19 w
  | .oraIndX b => [0x01, b]
  | .oraIndY b => [0x11, b]
  | .eorImm b => [0x49, b]
  | .eorZp b => [0x45, b]
  | .eorZpX b => [0x55, b]
  | .eorAbs w => bytes3 0x4D w
  | .eorAbsX w => bytes3 0x5D w
  | .eorAbsY w => bytes3 0x59 w
  | .eorIndX b => [0x41, b]
  | .eorIndY b => [0x51, b]
  | .bitZp b => [0x24, b]
  | .bitAbs w => bytes3 0x2C w
  | .aslAcc => [0x0A]
  | .aslZp b => [0x06, b]
  | .aslZpX b => [0x16, b]
  | .aslAbs w => bytes3 0x0E w
  | .aslAbsX w => bytes3 0x1E w
  | .lsrAcc => [0x4A]
  | .lsrZp b => [0x46, b]
  | .lsrZpX b => [0x56, b]
  | .lsrAbs w => bytes3 0x4E w
  | .lsrAbsX w => bytes3 0x5E w
  | .rolAcc => [0x2A]
  | .rolZp b => [0x26, b]
  | .rolZpX b => [0x36, b]
  | .rolAbs w => bytes3 0x2E w
  | .rolAbsX w => bytes3 0x3E w
  | .rorAcc => [0x6A]
  | .rorZp b => [0x66, b]
  | .rorZpX b => [0x76, b]
  | .rorAbs w => bytes3 0x6E w
  | .rorAbsX w => bytes3 0x7E w
  | .jmpAbs w => bytes3 0x4C w
  | .jmpInd w => bytes3 0x6C w
  | .jsrAbs w => bytes3 0x20 w
  | .rts => [0x60]
  | .rti => [0x40]
  | .brk => [0x00]
  | .bpl off => [0x10, offsetByte off]
  | .bmi off => [0x30, offsetByte off]
  | .bvc off => [0x50, offsetByte off]
  | .bvs off => [0x70, offsetByte off]
  | .bcc off => [0x90, offsetByte off]
  | .bcs off => [0xB0, offsetByte off]
  | .bne off => [0xD0, offsetByte off]
  | .beq off => [0xF0, offsetByte off]
  | .clc => [0x18]
  | .sec => [0x38]
  | .cld => [0xD8]
  | .sed => [0xF8]
  | .cli => [0x58]
  | .sei => [0x78]
  | .clv => [0xB8]
  | .nop => [0xEA]

/-- The three bytes of a table word: bits 7..0 are the first byte, and every bit from `nbits` up is 0. -/
def tableBytes (nbits w : Nat) : List Byte :=
  let v := w % 2 ^ nbits
  [BitVec.ofNat 8 v, BitVec.ofNat 8 (v / 2 ^ 8), BitVec.ofNat 8 (v / 2 ^ 16)]

/-- The instruction the decoder reads from a table word, laid out as the hardware stores it: first byte at the lowest
address, operand bytes of zeros where the table gives the operand no bits. -/
def decodeTableWord (nbits w : Nat) : Option Instr := (decode (tableBytes nbits w)).map Prod.fst

end Sys2Proof
end

