-- ==== Sys2Proof/Machine/Flags.lean ====
section
/-! DEFINITION. The status byte and every flag computation: `SetNZ`, the adder and subtractor (binary and BCD), the
comparator, increment and decrement, the shifts and rotates (R12, R22 to R24, R95 to R116). -/

namespace Sys2Proof.Machine

/-- `P_image(b)`: the status byte N V 1 b D I Z C (R23). -/
def pImage (b : Bool) (f : Flags) : Byte :=
  BitVec.ofBool f.n ++ BitVec.ofBool f.v ++ 1#1 ++ BitVec.ofBool b ++ BitVec.ofBool f.d ++ BitVec.ofBool f.i ++
    BitVec.ofBool f.z ++ BitVec.ofBool f.c

/-- The flags a pulled status byte gives; bits 5 and 4 are discarded (R94, R120). -/
def flagsOf (v : Byte) : Flags :=
  { n := v.getLsbD 7, v := v.getLsbD 6, d := v.getLsbD 3, i := v.getLsbD 2, z := v.getLsbD 1, c := v.getLsbD 0 }

/-- `SetNZ(v)` (R12). -/
def setNZ (v : Byte) (f : Flags) : Flags := { f with n := v.getLsbD 7, z := decide (v = 0) }

/-- A result byte with a carry. -/
structure ByteCarry where
  val   : Byte
  carry : Bool
  deriving DecidableEq, Repr

/-- The result of ADC or SBC: the byte, the carry and the overflow. -/
structure Sum where
  val      : Byte
  carry    : Bool
  overflow : Bool
  deriving DecidableEq, Repr

/-- A carry bit as a number. -/
def carryNat (c : Bool) : Nat := if c then 1 else 0

/-- Binary ADC (R96, D = 0). -/
def adcBinary (a m : Byte) (c : Bool) : Sum :=
  let sum : Nat := a.toNat + m.toNat + carryNat c
  let r : Byte := BitVec.ofNat 8 sum
  { val := r
    carry := decide (0xFF < sum)
    overflow := decide (~~~(a ^^^ m) &&& (a ^^^ r) &&& 0x80 ≠ 0) }

/-- The low decimal digit of a decimal ADC, adjusted: `lo` of R96. -/
def decimalLowAdd (a m : Byte) (c : Bool) : Nat :=
  let lo : Nat := (a &&& 0x0F).toNat + (m &&& 0x0F).toNat + carryNat c
  if 0x0A ≤ lo then (lo + 0x06) % 0x10 + 0x10 else lo

/-- Decimal ADC (R96, D = 1; R97). -/
def adcDecimal (a m : Byte) (c : Bool) : Sum :=
  let lo : Nat := decimalLowAdd a m c
  let sv : Int := sext8 (a &&& 0xF0) + sext8 (m &&& 0xF0) + lo
  let s : Nat := (a &&& 0xF0).toNat + (m &&& 0xF0).toNat + lo
  let s' : Nat := if 0xA0 ≤ s then s + 0x60 else s
  { val := BitVec.ofNat 8 s'
    carry := decide (0x100 ≤ s')
    overflow := decide (sv < -128) || decide (127 < sv) }

/-- ADC: binary or decimal by D (R96). -/
def adcSum (f : Flags) (a m : Byte) : Sum := if f.d then adcDecimal a m f.c else adcBinary a m f.c

/-- `A - M - (1 - C)` on integers (R98). -/
def binaryDiff (a m : Byte) (c : Bool) : Int := (a.toNat : Int) - m.toNat - (1 - carryNat c)

/-- Binary SBC (R98, D = 0). -/
def sbcBinary (a m : Byte) (c : Bool) : Sum :=
  let diff : Int := binaryDiff a m c
  let r : Byte := BitVec.ofInt 8 diff
  { val := r
    carry := decide (0 ≤ diff)
    overflow := decide ((a ^^^ m) &&& (a ^^^ r) &&& 0x80 ≠ 0) }

/-- The low decimal digit of a decimal SBC, adjusted: `lo` of R98. `&` on a negative integer is two's complement, so
`x & $0F` is `x % 16`. -/
def decimalLowSub (a m : Byte) (c : Bool) : Int :=
  let lo : Int := ((a &&& 0x0F).toNat : Int) - (m &&& 0x0F).toNat + carryNat c - 1
  if lo < 0 then (lo - 0x06) % 0x10 - 0x10 else lo

/-- The accumulator of a decimal SBC (R98, D = 1). -/
def sbcDecimalVal (a m : Byte) (c : Bool) : Byte :=
  let s : Int := ((a &&& 0xF0).toNat : Int) - (m &&& 0xF0).toNat + decimalLowSub a m c
  BitVec.ofInt 8 (if s < 0 then s - 0x60 else s)

/-- SBC: the value by D; carry and overflow always from the binary difference (R98, R99). -/
def sbcDiff (f : Flags) (a m : Byte) : Sum :=
  if f.d then { sbcBinary a m f.c with val := sbcDecimalVal a m f.c } else sbcBinary a m f.c

/-- The flags after ADC or SBC: N and Z from the final accumulator, V and C from the sum (R96, R98). -/
def flagsOfSum (r : Sum) (f : Flags) : Flags := setNZ r.val { f with v := r.overflow, c := r.carry }

/-- The flags after comparing register `r` with `m`: C is "no borrow", N and Z from the 8-bit difference (R100). -/
def flagsOfCompare (r m : Byte) (f : Flags) : Flags := setNZ (r - m) { f with c := decide (m.toNat ≤ r.toNat) }

/-- The flags after BIT: N and V from the operand, Z from A & M (R112). -/
def flagsOfBit (a m : Byte) (f : Flags) : Flags :=
  { f with n := m.getLsbD 7, v := m.getLsbD 6, z := decide (a &&& m = 0) }

/-- ASL: bit 7 to the carry, 0 into bit 0 (R113). -/
def shiftAsl (v : Byte) (_c : Bool) : ByteCarry := { val := v <<< 1, carry := v.getLsbD 7 }

/-- LSR: bit 0 to the carry, 0 into bit 7 (R114). -/
def shiftLsr (v : Byte) (_c : Bool) : ByteCarry := { val := v >>> 1, carry := v.getLsbD 0 }

/-- ROL: the old carry into bit 0, bit 7 to the carry (R115). -/
def shiftRol (v : Byte) (c : Bool) : ByteCarry :=
  { val := v <<< 1 ||| (if c then 0x01 else 0x00), carry := v.getLsbD 7 }

/-- ROR: the old carry into bit 7, bit 0 to the carry (R116). -/
def shiftRor (v : Byte) (c : Bool) : ByteCarry :=
  { val := v >>> 1 ||| (if c then 0x80 else 0x00), carry := v.getLsbD 0 }

/-- The flags after a shift or rotate (R113 to R116). -/
def flagsOfShift (r : ByteCarry) (f : Flags) : Flags := setNZ r.val { f with c := r.carry }

end Sys2Proof.Machine
end

