-- ==== Sys2Proof/Machine/Vic.lean ====
section
/-! DEFINITION. The VIC-II in character mode: register file, raster counter and compare interrupt (61_vic_ii.md). -/

namespace Sys2Proof.Machine

/-- The raster compare value: bit 8 is bit 7 of $D011, the rest is $D012 (R161). -/
def vicCompare (v : Vic) : BitVec 9 := v.vreg[0x11].extractLsb' 7 1 ++ v.vreg[0x12]

/-- `VicIrqLine()`: some latch bit is enabled in $D01A (R163). -/
def vicIrqLine (v : Vic) : Bool := decide (v.latch &&& v.vreg[0x1A].setWidth 4 ≠ 0)

/-- `VicRead(i)` (R157). It changes nothing. -/
def vicRead (v : Vic) (i : BitVec 6) : Byte :=
  if h : i.toNat < 47 then
    if i = 0x11 then (v.vreg[0x11] &&& 0x7F) ||| ((v.raster >>> 8).setWidth 8 <<< 7)
    else if i = 0x12 then v.raster.setWidth 8
    else if i = 0x19 then v.latch.setWidth 8 ||| (if vicIrqLine v then 0x80 else 0x00)
    else v.vreg[i.toNat]
  else 0xFF

/-- `VicWrite(i, v)` (R158): $D019 clears the latch bits written as 1 (R159); indexes above $2E are discarded (R156). -/
def vicWrite (v : Vic) (i : BitVec 6) (b : Byte) : Vic :=
  if h : i.toNat < 47 then
    if i = 0x19 then { v with latch := v.latch &&& ~~~(b.setWidth 4) }
    else { v with vreg := v.vreg.set i.toNat b }
  else v

/-- The raster moves to the next line: it wraps after line 311 and makes a frame available, and then the new line is
compared (R162, the body of the loop after the subtraction). -/
def vicLine (v : Vic) : Vic :=
  let wrap : Bool := decide (v.raster + 1 = 312)
  let line : BitVec 9 := if wrap then 0 else v.raster + 1
  { v with
    raster := line
    frameAvailable := v.frameAvailable || wrap
    latch := if line = vicCompare v then v.latch ||| 1 else v.latch }

/-- `VicTick(n)` (R162): one line for every whole 63 cycles of the accumulated count, the rest stays in the accumulator. -/
def vicTick (n : Nat) (v : Vic) : Vic :=
  { vicLine^[(v.acc + n) / 63] v with acc := (v.acc + n) % 63 }

end Sys2Proof.Machine
end

