-- ==== Sys2Proof/Machine/Ops.lean ====
section
/-! DEFINITION. The named operations over memory and registers: the processor port and the bank table, the bus read and
write (20_memory.md), the stack (R19, R20), the end of an instruction (R21), and taking and returning from an exception
(R120, R121, R140). -/

namespace Sys2Proof.Machine

/-! ## The processor port and the banks -/

/-- What a read of $0001 returns: output bits read DATA, input bits read 1 (R37). -/
def portValue (s : State) : Byte := (s.data &&& s.ddr) ||| ~~~s.ddr

/-- The bank configuration `(DATA | ~DDR) & 7` (R39). -/
def bankCfg (s : State) : BitVec 3 := (s.data ||| ~~~s.ddr).setWidth 3

/-- LORAM (R39). -/
def loram (s : State) : Bool := (bankCfg s).getLsbD 0

/-- HIRAM (R39). -/
def hiram (s : State) : Bool := (bankCfg s).getLsbD 1

/-- CHAREN (R39). -/
def charen (s : State) : Bool := (bankCfg s).getLsbD 2

/-- What a bus read reaches (R41). -/
inductive Source where
  | port | basic | kernal | io | charRom | ram
  deriving DecidableEq, Repr

/-- Where a read of an address goes in the current configuration (R40, R41). -/
def readSource (s : State) (a : Word) : Source :=
  if a.toNat < 2 then .port
  else if 0xA000 ≤ a.toNat ∧ a.toNat ≤ 0xBFFF ∧ loram s = true ∧ hiram s = true then .basic
  else if 0xE000 ≤ a.toNat ∧ hiram s = true then .kernal
  else if 0xD000 ≤ a.toNat ∧ a.toNat ≤ 0xDFFF ∧ (loram s || hiram s) = true then
    (if charen s then .io else .charRom)
  else .ram

/-- The device of an IO address, by bits 11 to 8 (R44). -/
inductive IoDevice where
  | vicII | colorRam | ciaA | ciaB | unmapped
  deriving DecidableEq, Repr

/-- The IO dispatch (R44, R45). -/
def ioDevice (a : Word) : IoDevice :=
  let n := (a.extractLsb' 8 4).toNat
  if n < 4 then .vicII
  else if n < 8 then .unmapped
  else if n < 12 then .colorRam
  else if n = 12 then .ciaA
  else if n = 13 then .ciaB
  else .unmapped

/-! ## The memories behind the bus -/

/-- The RAM byte at an address, whatever the banks (R28, R56). -/
def ramByte (s : State) (a : Word) : Byte := Memory.read Config.ramFill s.ram a.toNat

/-- Store a byte into RAM. -/
def setRam (s : State) (a : Word) (v : Byte) : State :=
  { s with ram := Memory.write Config.ramFill s.ram a.toNat v }

/-- The BASIC ROM byte behind an address (R41). -/
def basicByte (s : State) (a : Word) : Byte := Memory.read Config.basicFill s.romBasic (a.toNat - 0xA000)

/-- The KERNAL ROM byte behind an address (R41). -/
def kernalByte (s : State) (a : Word) : Byte := Memory.read Config.kernalFill s.romKernal (a.toNat - 0xE000)

/-- The CHAR ROM byte behind an address (R41). -/
def charByte (s : State) (a : Word) : Byte := Memory.read Config.charFill s.romChar (a.toNat - 0xD000)

/-- The index of a color RAM cell, `addr & $3FF` (R46). -/
def colorIndex (a : Word) : Nat := (a.extractLsb' 0 10).toNat

/-- The color RAM cell at an index (R29). -/
def colorCell (s : State) (i : Nat) : Nibble := Memory.read Config.colorFill s.color i

/-- `IoRead(addr)` (R44): the value, and the state after the read. An ICR read clears that CIA's latch (R49, R179); a color
RAM read takes a fresh draw for the upper four bits (R46, log 5). -/
def ioRead (s : State) (a : Word) : Byte × State :=
  match ioDevice a with
  | .vicII => (vicRead s.vic (a.extractLsb' 0 6), s)
  | .colorRam =>
    (Config.colorHigh s.colorDraws ++ colorCell s (colorIndex a), { s with colorDraws := s.colorDraws + 1 })
  | .ciaA =>
    let r := ciaRead (keyboardPort s.ciaA s.keys) s.ciaA (a.extractLsb' 0 4)
    (r.1, { s with ciaA := r.2 })
  | .ciaB =>
    let r := ciaRead (ciaPortB s.ciaB) s.ciaB (a.extractLsb' 0 4)
    (r.1, { s with ciaB := r.2 })
  | .unmapped => (0xFF, s)

/-- `IoWrite(addr, v)` (R45, R46). -/
def ioWrite (s : State) (a : Word) (v : Byte) : State :=
  match ioDevice a with
  | .vicII => { s with vic := vicWrite s.vic (a.extractLsb' 0 6) v }
  | .colorRam => { s with color := Memory.write Config.colorFill s.color (colorIndex a) (v.setWidth 4) }
  | .ciaA => { s with ciaA := ciaWrite s.ciaA (a.extractLsb' 0 4) v }
  | .ciaB => { s with ciaB := ciaWrite s.ciaB (a.extractLsb' 0 4) v }
  | .unmapped => s

/-! ## The bus -/

/-- `MemRead(addr, 1)` (R41): the byte and the state after the read. -/
def memRead (s : State) (a : Word) : Byte × State :=
  match readSource s a with
  | .port => (if a = 0 then s.ddr else portValue s, s)
  | .basic => (basicByte s a, s)
  | .kernal => (kernalByte s a, s)
  | .io => ioRead s a
  | .charRom => (charByte s a, s)
  | .ram => (ramByte s a, s)

/-- A write to the processor port also lands in RAM (R38, D11). -/
def portWrite (s : State) (a : Word) (v : Byte) : State :=
  if a = 0 then setRam { s with ddr := v } a v else setRam { s with data := v } a v

/-- `MemWrite(addr, 1, v)` (R42): the port, the IO devices when IO is visible, and RAM everywhere else, under the ROMs
too. -/
def memWrite (s : State) (a : Word) (v : Byte) : State :=
  match readSource s a with
  | .port => portWrite s a v
  | .io => ioWrite s a v
  | .basic | .kernal | .charRom | .ram => setRam s a v

/-- `Read16(addr)`: the low byte at `addr`, then the high byte at `addr + 1` (R11). -/
def read16 (s : State) (a : Word) : Word × State :=
  let lo := memRead s a
  let hi := memRead lo.2 (a + 1)
  (mkWord lo.1 hi.1, hi.2)

/-! ## Registers -/

/-- `A <- v`. -/
def setA (s : State) (v : Byte) : State := { s with a := v }

/-- `X <- v`. -/
def setX (s : State) (v : Byte) : State := { s with x := v }

/-- `Y <- v`. -/
def setY (s : State) (v : Byte) : State := { s with y := v }

/-- `S <- v`. -/
def setSp (s : State) (v : Byte) : State := { s with sp := v }

/-- Write the flags. -/
def setP (s : State) (f : Flags) : State := { s with p := f }

/-- The end of a step: the new PC and the cycle count the step returns (R21, R207). -/
def finishAt (s : State) (pc : Word) (n : Nat) : State := { s with pc := pc, stepCycles := n }

/-- The end of an instruction of length `len` that does not transfer control (R21). -/
def finish (s : State) (len n : Nat) : State := finishAt s (s.pc + BitVec.ofNat 16 len) n

/-! ## The stack -/

/-- The stack address `$0100 | S` (R19). -/
def stackAddr (sp : Byte) : Word := mkWord sp 0x01

/-- `Push(v)` (R19). -/
def push (s : State) (v : Byte) : State := setSp (memWrite s (stackAddr s.sp) v) (s.sp - 1)

/-- `Pull()` (R20): the byte and the state after it. -/
def pull (s : State) : Byte × State := memRead (setSp s (s.sp + 1)) (stackAddr (s.sp + 1))

/-- Push a 16-bit value, high byte first (R47, R118, R140). -/
def pushWord (s : State) (w : Word) : State := push (push s (hiByte w)) (loByte w)

/-- Pull a 16-bit value, low byte first (R119, R120). -/
def pullWord (s : State) : Word × State :=
  let lo := pull s
  let hi := pull lo.2
  (mkWord lo.1 hi.1, hi.2)

/-! ## Exceptions -/

/-- The NMI vector (R50). -/
def nmiVector : Word := 0xFFFA

/-- The RESET vector (R50). -/
def resetVector : Word := 0xFFFC

/-- The IRQ and BRK vector (R50). -/
def irqVector : Word := 0xFFFE

/-- Taking an exception, the one sequence of NMI, IRQ and BRK (R121, R140): push the return address, high byte first, push
the status byte with B = `b`, set I, and load PC through the bus from the vector. It costs 7 cycles. -/
def takeException (ret : Word) (b : Bool) (vec : Word) (s : State) : State :=
  let s1 := pushWord s ret
  let s2 := push s1 (pImage b s1.p)
  let s3 := setP s2 { s2.p with i := true }
  let v := read16 s3 vec
  finishAt v.2 v.1 7

/-- `Entry(vec)`: NMI and IRQ entry, saving the PC of the instruction that has not run, with B = 0 (R140). -/
def interruptEntry (vec : Word) (s : State) : State := takeException s.pc false vec s

/-- The return from an exception (R120, R146): pull the flags, then the PC, to which nothing is added. -/
def returnFromException (s : State) : State :=
  let f := pull s
  let r := pullWord (setP f.2 (flagsOf f.1))
  finishAt r.2 r.1 6

end Sys2Proof.Machine
end

