-- ==== Sys2Proof/Machine/Operands.lean ====
section
/-! DEFINITION. The operand forms (R60 to R73) and the four shapes of instruction over them: read, store, read-modify-write
and branch, with their cycle counts (R207 to R209). -/

namespace Sys2Proof.Machine

/-- The memory addressing modes with their operand (R64 to R69, R71, R72). -/
inductive MemMode where
  | zp (b : Byte)
  | zpX (b : Byte)
  | zpY (b : Byte)
  | abs (w : Word)
  | absX (w : Word)
  | absY (w : Word)
  | indX (b : Byte)
  | indY (b : Byte)
  deriving DecidableEq, Repr

/-- An operand that is loaded: immediate, or a byte in memory (R60, `Load(mode)`). -/
inductive Operand where
  | imm (b : Byte)
  | mem (m : MemMode)
  deriving DecidableEq, Repr

/-- The length of an instruction with that memory operand (R58). -/
def memLength : MemMode → Nat
  | .zp _ | .zpX _ | .zpY _ | .indX _ | .indY _ => 2
  | .abs _ | .absX _ | .absY _ => 3

/-- The length of an instruction with that operand (R58). -/
def operandLength : Operand → Nat
  | .imm _ => 2
  | .mem m => memLength m

/-- A zero-page address: `zext_16(b)` (R60). -/
def zeroPage (b : Byte) : Word := mkWord b 0x00

/-- An effective address: the address, the page-cross flag, and the state after the mode's bus reads (R60). -/
structure Ea where
  addr    : Word
  crossed : Bool
  st      : State

/-- The 16-bit pointer whose two bytes are both in the zero page: its high byte wraps to $00 after $FF (R71, R72). -/
def zeroPagePointer (s : State) (p : Byte) : Word × State :=
  let lo := memRead s (zeroPage p)
  let hi := memRead lo.2 (zeroPage (p + 1))
  (mkWord lo.1 hi.1, hi.2)

/-- An indexed address and whether the index left the page of the base (R68, R69, R72). -/
def indexed (base : Word) (i : Byte) (s : State) : Ea :=
  let addr := base + i.setWidth 16
  { addr := addr, crossed := decide (page base ≠ page addr), st := s }

/-- The effective address of each mode (R64 to R69, R71, R72). Zero-page indexing wraps inside the zero page. -/
def effectiveAddress (m : MemMode) (s : State) : Ea :=
  match m with
  | .zp b => { addr := zeroPage b, crossed := false, st := s }
  | .zpX b => { addr := zeroPage (b + s.x), crossed := false, st := s }
  | .zpY b => { addr := zeroPage (b + s.y), crossed := false, st := s }
  | .abs w => { addr := w, crossed := false, st := s }
  | .absX w => indexed w s.x s
  | .absY w => indexed w s.y s
  | .indX b =>
    let r := zeroPagePointer s (b + s.x)
    { addr := r.1, crossed := false, st := r.2 }
  | .indY b =>
    let r := zeroPagePointer s b
    indexed r.1 s.y r.2

/-- The pointer of `JMP (ind)`: the high byte is read from the same page as the low byte (R70, D13). -/
def indirectTarget (ptr : Word) (s : State) : Word × State :=
  let lo := memRead s ptr
  let hi := memRead lo.2 (mkWord (loByte ptr + 1) (hiByte ptr))
  (mkWord lo.1 hi.1, hi.2)

/-- A loaded operand: the byte, the page-cross flag, and the state after the reads. -/
structure Loaded where
  val     : Byte
  crossed : Bool
  st      : State

/-- `Load(mode)` (R60, R63). -/
def loadOperand (o : Operand) (s : State) : Loaded :=
  match o with
  | .imm b => { val := b, crossed := false, st := s }
  | .mem m =>
    let e := effectiveAddress m s
    let r := memRead e.st e.addr
    { val := r.1, crossed := e.crossed, st := r.2 }

/-- The extra cycle of a crossed page (R208). -/
def crossCycle (crossed : Bool) : Nat := if crossed then 1 else 0

/-- An instruction that loads an operand and changes registers and flags by it. A crossed page costs one cycle more than
the base count (R207, R208). -/
def readOp (o : Operand) (base : Nat) (f : Byte → State → State) (s : State) : State :=
  let l := loadOperand o s
  finish (f l.val l.st) (operandLength o) (base + crossCycle l.crossed)

/-- An instruction that stores a register. The target is never read and the count is fixed (R82, R208). -/
def storeOp (m : MemMode) (cycles : Nat) (v : Byte) (s : State) : State :=
  let e := effectiveAddress m s
  finish (memWrite e.st e.addr v) (memLength m) cycles

/-- A read-modify-write instruction: one read and one write of the effective address, a fixed count (R53, R74, R208). `f`
gives the new byte and the new flags from the byte read and the flags. -/
def modifyOp (m : MemMode) (cycles : Nat) (f : Byte → Flags → Byte × Flags) (s : State) : State :=
  let e := effectiveAddress m s
  let r := memRead e.st e.addr
  let o := f r.1 s.p
  finish (setP (memWrite r.2 e.addr o.1) o.2) (memLength m) cycles

/-- The address of the instruction after a branch (R73). -/
def branchNext (s : State) : Word := s.pc + 2

/-- The target of a branch (R73). -/
def branchTarget (off : Int) (s : State) : Word := branchNext s + BitVec.ofInt 16 off

/-- A branch (45_control.md section 2): 2 cycles, 1 more when taken, 1 more when the target is on another page (R209). -/
def branchOp (off : Int) (cond : Bool) (s : State) : State :=
  if cond then
    finishAt s (branchTarget off s) (if page (branchTarget off s) = page (branchNext s) then 3 else 4)
  else finishAt s (branchNext s) 2

/-- An implied instruction that changes registers and flags only: 1 byte (R61). -/
def impliedOp (cycles : Nat) (f : State → State) (s : State) : State := finish (f s) 1 cycles

end Sys2Proof.Machine
end

