-- ==== Sys2Proof/Machine/LoadStore.lean ====
section
/-! DEFINITION. Loads and stores (41_load_store.md, R79 to R84): one meaning per instruction, over the shared operations. -/

namespace Sys2Proof.Machine

/-- `A <- M; SetNZ(A)` (R79). -/
def loadA (v : Byte) (s : State) : State := setP (setA s v) (setNZ v s.p)

/-- `X <- M; SetNZ(X)` (R80). -/
def loadX (v : Byte) (s : State) : State := setP (setX s v) (setNZ v s.p)

/-- `Y <- M; SetNZ(Y)` (R81). -/
def loadY (v : Byte) (s : State) : State := setP (setY s v) (setNZ v s.p)

/-- LDA $A9, immediate (R79, R63): 2 bytes, 2 cycles. -/
def execLdaImm (b : Byte) (s : State) : Host.Outcome State Fault Refusal :=
  .next (readOp (.imm b) 2 loadA s)

/-- LDA $A5, zero page (R79, R64): 2 bytes, 3 cycles. -/
def execLdaZp (b : Byte) (s : State) : Host.Outcome State Fault Refusal :=
  .next (readOp (.mem (.zp b)) 3 loadA s)

/-- LDA $B5, zero page,X (R79, R65): 2 bytes, 4 cycles. -/
def execLdaZpX (b : Byte) (s : State) : Host.Outcome State Fault Refusal :=
  .next (readOp (.mem (.zpX b)) 4 loadA s)

/-- LDA $AD, absolute (R79, R67): 3 bytes, 4 cycles. -/
def execLdaAbs (w : Word) (s : State) : Host.Outcome State Fault Refusal :=
  .next (readOp (.mem (.abs w)) 4 loadA s)

/-- LDA $BD, absolute,X (R79, R68): 3 bytes, 4 cycles + 1 if the page is crossed (R208). -/
def execLdaAbsX (w : Word) (s : State) : Host.Outcome State Fault Refusal :=
  .next (readOp (.mem (.absX w)) 4 loadA s)

/-- LDA $B9, absolute,Y (R79, R69): 3 bytes, 4 cycles + 1 if the page is crossed (R208). -/
def execLdaAbsY (w : Word) (s : State) : Host.Outcome State Fault Refusal :=
  .next (readOp (.mem (.absY w)) 4 loadA s)

/-- LDA $A1, (indirect,X) (R79, R71): 2 bytes, 6 cycles. -/
def execLdaIndX (b : Byte) (s : State) : Host.Outcome State Fault Refusal :=
  .next (readOp (.mem (.indX b)) 6 loadA s)

/-- LDA $B1, (indirect),Y (R79, R72): 2 bytes, 5 cycles + 1 if the page is crossed (R208). -/
def execLdaIndY (b : Byte) (s : State) : Host.Outcome State Fault Refusal :=
  .next (readOp (.mem (.indY b)) 5 loadA s)

/-- LDX $A2, immediate (R80, R63): 2 bytes, 2 cycles. -/
def execLdxImm (b : Byte) (s : State) : Host.Outcome State Fault Refusal :=
  .next (readOp (.imm b) 2 loadX s)

/-- LDX $A6, zero page (R80, R64): 2 bytes, 3 cycles. -/
def execLdxZp (b : Byte) (s : State) : Host.Outcome State Fault Refusal :=
  .next (readOp (.mem (.zp b)) 3 loadX s)

/-- LDX $B6, zero page,Y (R80, R66): 2 bytes, 4 cycles. -/
def execLdxZpY (b : Byte) (s : State) : Host.Outcome State Fault Refusal :=
  .next (readOp (.mem (.zpY b)) 4 loadX s)

/-- LDX $AE, absolute (R80, R67): 3 bytes, 4 cycles. -/
def execLdxAbs (w : Word) (s : State) : Host.Outcome State Fault Refusal :=
  .next (readOp (.mem (.abs w)) 4 loadX s)

/-- LDX $BE, absolute,Y (R80, R69): 3 bytes, 4 cycles + 1 if the page is crossed (R208). -/
def execLdxAbsY (w : Word) (s : State) : Host.Outcome State Fault Refusal :=
  .next (readOp (.mem (.absY w)) 4 loadX s)

/-- LDY $A0, immediate (R81, R63): 2 bytes, 2 cycles. -/
def execLdyImm (b : Byte) (s : State) : Host.Outcome State Fault Refusal :=
  .next (readOp (.imm b) 2 loadY s)

/-- LDY $A4, zero page (R81, R64): 2 bytes, 3 cycles. -/
def execLdyZp (b : Byte) (s : State) : Host.Outcome State Fault Refusal :=
  .next (readOp (.mem (.zp b)) 3 loadY s)

/-- LDY $B4, zero page,X (R81, R65): 2 bytes, 4 cycles. -/
def execLdyZpX (b : Byte) (s : State) : Host.Outcome State Fault Refusal :=
  .next (readOp (.mem (.zpX b)) 4 loadY s)

/-- LDY $AC, absolute (R81, R67): 3 bytes, 4 cycles. -/
def execLdyAbs (w : Word) (s : State) : Host.Outcome State Fault Refusal :=
  .next (readOp (.mem (.abs w)) 4 loadY s)

/-- LDY $BC, absolute,X (R81, R68): 3 bytes, 4 cycles + 1 if the page is crossed (R208). -/
def execLdyAbsX (w : Word) (s : State) : Host.Outcome State Fault Refusal :=
  .next (readOp (.mem (.absX w)) 4 loadY s)

/-- STA $85, zero page (R82, R64): 2 bytes, 3 cycles. -/
def execStaZp (b : Byte) (s : State) : Host.Outcome State Fault Refusal :=
  .next (storeOp (.zp b) 3 s.a s)

/-- STA $95, zero page,X (R82, R65): 2 bytes, 4 cycles. -/
def execStaZpX (b : Byte) (s : State) : Host.Outcome State Fault Refusal :=
  .next (storeOp (.zpX b) 4 s.a s)

/-- STA $8D, absolute (R82, R67): 3 bytes, 4 cycles. -/
def execStaAbs (w : Word) (s : State) : Host.Outcome State Fault Refusal :=
  .next (storeOp (.abs w) 4 s.a s)

/-- STA $9D, absolute,X (R82, R68): 3 bytes, 5 cycles. -/
def execStaAbsX (w : Word) (s : State) : Host.Outcome State Fault Refusal :=
  .next (storeOp (.absX w) 5 s.a s)

/-- STA $99, absolute,Y (R82, R69): 3 bytes, 5 cycles. -/
def execStaAbsY (w : Word) (s : State) : Host.Outcome State Fault Refusal :=
  .next (storeOp (.absY w) 5 s.a s)

/-- STA $81, (indirect,X) (R82, R71): 2 bytes, 6 cycles. -/
def execStaIndX (b : Byte) (s : State) : Host.Outcome State Fault Refusal :=
  .next (storeOp (.indX b) 6 s.a s)

/-- STA $91, (indirect),Y (R82, R72): 2 bytes, 6 cycles. -/
def execStaIndY (b : Byte) (s : State) : Host.Outcome State Fault Refusal :=
  .next (storeOp (.indY b) 6 s.a s)

/-- STX $86, zero page (R83, R64): 2 bytes, 3 cycles. -/
def execStxZp (b : Byte) (s : State) : Host.Outcome State Fault Refusal :=
  .next (storeOp (.zp b) 3 s.x s)

/-- STX $96, zero page,Y (R83, R66): 2 bytes, 4 cycles. -/
def execStxZpY (b : Byte) (s : State) : Host.Outcome State Fault Refusal :=
  .next (storeOp (.zpY b) 4 s.x s)

/-- STX $8E, absolute (R83, R67): 3 bytes, 4 cycles. -/
def execStxAbs (w : Word) (s : State) : Host.Outcome State Fault Refusal :=
  .next (storeOp (.abs w) 4 s.x s)

/-- STY $84, zero page (R84, R64): 2 bytes, 3 cycles. -/
def execStyZp (b : Byte) (s : State) : Host.Outcome State Fault Refusal :=
  .next (storeOp (.zp b) 3 s.y s)

/-- STY $94, zero page,X (R84, R65): 2 bytes, 4 cycles. -/
def execStyZpX (b : Byte) (s : State) : Host.Outcome State Fault Refusal :=
  .next (storeOp (.zpX b) 4 s.y s)

/-- STY $8C, absolute (R84, R67): 3 bytes, 4 cycles. -/
def execStyAbs (w : Word) (s : State) : Host.Outcome State Fault Refusal :=
  .next (storeOp (.abs w) 4 s.y s)

end Sys2Proof.Machine
end

