-- ==== Sys2Proof/Machine/Arith.lean ====
section
/-! DEFINITION. Arithmetic, compare, increment and decrement (43_arithmetic.md, R95 to R108): one meaning per instruction, over the shared operations. -/

namespace Sys2Proof.Machine

/-- ADC on an operand (R96). -/
def addToA (m : Byte) (s : State) : State :=
  let r := adcSum s.p s.a m
  setP (setA s r.val) (flagsOfSum r s.p)

/-- SBC on an operand (R98). -/
def subtractFromA (m : Byte) (s : State) : State :=
  let r := sbcDiff s.p s.a m
  setP (setA s r.val) (flagsOfSum r s.p)

/-- CMP on an operand (R100). -/
def compareA (m : Byte) (s : State) : State := setP s (flagsOfCompare s.a m s.p)

/-- CPX on an operand (R101). -/
def compareX (m : Byte) (s : State) : State := setP s (flagsOfCompare s.x m s.p)

/-- CPY on an operand (R102). -/
def compareY (m : Byte) (s : State) : State := setP s (flagsOfCompare s.y m s.p)

/-- INC of a byte: the result and the flags (R103). -/
def increment (v : Byte) (f : Flags) : Byte × Flags := (v + 1, setNZ (v + 1) f)

/-- DEC of a byte: the result and the flags (R104). -/
def decrement (v : Byte) (f : Flags) : Byte × Flags := (v - 1, setNZ (v - 1) f)

/-- ADC $69, immediate (R96, R63): 2 bytes, 2 cycles. -/
def execAdcImm (b : Byte) (s : State) : Host.Outcome State Fault Refusal :=
  .next (readOp (.imm b) 2 addToA s)

/-- ADC $65, zero page (R96, R64): 2 bytes, 3 cycles. -/
def execAdcZp (b : Byte) (s : State) : Host.Outcome State Fault Refusal :=
  .next (readOp (.mem (.zp b)) 3 addToA s)

/-- ADC $75, zero page,X (R96, R65): 2 bytes, 4 cycles. -/
def execAdcZpX (b : Byte) (s : State) : Host.Outcome State Fault Refusal :=
  .next (readOp (.mem (.zpX b)) 4 addToA s)

/-- ADC $6D, absolute (R96, R67): 3 bytes, 4 cycles. -/
def execAdcAbs (w : Word) (s : State) : Host.Outcome State Fault Refusal :=
  .next (readOp (.mem (.abs w)) 4 addToA s)

/-- ADC $7D, absolute,X (R96, R68): 3 bytes, 4 cycles + 1 if the page is crossed (R208). -/
def execAdcAbsX (w : Word) (s : State) : Host.Outcome State Fault Refusal :=
  .next (readOp (.mem (.absX w)) 4 addToA s)

/-- ADC $79, absolute,Y (R96, R69): 3 bytes, 4 cycles + 1 if the page is crossed (R208). -/
def execAdcAbsY (w : Word) (s : State) : Host.Outcome State Fault Refusal :=
  .next (readOp (.mem (.absY w)) 4 addToA s)

/-- ADC $61, (indirect,X) (R96, R71): 2 bytes, 6 cycles. -/
def execAdcIndX (b : Byte) (s : State) : Host.Outcome State Fault Refusal :=
  .next (readOp (.mem (.indX b)) 6 addToA s)

/-- ADC $71, (indirect),Y (R96, R72): 2 bytes, 5 cycles + 1 if the page is crossed (R208). -/
def execAdcIndY (b : Byte) (s : State) : Host.Outcome State Fault Refusal :=
  .next (readOp (.mem (.indY b)) 5 addToA s)

/-- SBC $E9, immediate (R98, R63): 2 bytes, 2 cycles. -/
def execSbcImm (b : Byte) (s : State) : Host.Outcome State Fault Refusal :=
  .next (readOp (.imm b) 2 subtractFromA s)

/-- SBC $E5, zero page (R98, R64): 2 bytes, 3 cycles. -/
def execSbcZp (b : Byte) (s : State) : Host.Outcome State Fault Refusal :=
  .next (readOp (.mem (.zp b)) 3 subtractFromA s)

/-- SBC $F5, zero page,X (R98, R65): 2 bytes, 4 cycles. -/
def execSbcZpX (b : Byte) (s : State) : Host.Outcome State Fault Refusal :=
  .next (readOp (.mem (.zpX b)) 4 subtractFromA s)

/-- SBC $ED, absolute (R98, R67): 3 bytes, 4 cycles. -/
def execSbcAbs (w : Word) (s : State) : Host.Outcome State Fault Refusal :=
  .next (readOp (.mem (.abs w)) 4 subtractFromA s)

/-- SBC $FD, absolute,X (R98, R68): 3 bytes, 4 cycles + 1 if the page is crossed (R208). -/
def execSbcAbsX (w : Word) (s : State) : Host.Outcome State Fault Refusal :=
  .next (readOp (.mem (.absX w)) 4 subtractFromA s)

/-- SBC $F9, absolute,Y (R98, R69): 3 bytes, 4 cycles + 1 if the page is crossed (R208). -/
def execSbcAbsY (w : Word) (s : State) : Host.Outcome State Fault Refusal :=
  .next (readOp (.mem (.absY w)) 4 subtractFromA s)

/-- SBC $E1, (indirect,X) (R98, R71): 2 bytes, 6 cycles. -/
def execSbcIndX (b : Byte) (s : State) : Host.Outcome State Fault Refusal :=
  .next (readOp (.mem (.indX b)) 6 subtractFromA s)

/-- SBC $F1, (indirect),Y (R98, R72): 2 bytes, 5 cycles + 1 if the page is crossed (R208). -/
def execSbcIndY (b : Byte) (s : State) : Host.Outcome State Fault Refusal :=
  .next (readOp (.mem (.indY b)) 5 subtractFromA s)

/-- CMP $C9, immediate (R100, R63): 2 bytes, 2 cycles. -/
def execCmpImm (b : Byte) (s : State) : Host.Outcome State Fault Refusal :=
  .next (readOp (.imm b) 2 compareA s)

/-- CMP $C5, zero page (R100, R64): 2 bytes, 3 cycles. -/
def execCmpZp (b : Byte) (s : State) : Host.Outcome State Fault Refusal :=
  .next (readOp (.mem (.zp b)) 3 compareA s)

/-- CMP $D5, zero page,X (R100, R65): 2 bytes, 4 cycles. -/
def execCmpZpX (b : Byte) (s : State) : Host.Outcome State Fault Refusal :=
  .next (readOp (.mem (.zpX b)) 4 compareA s)

/-- CMP $CD, absolute (R100, R67): 3 bytes, 4 cycles. -/
def execCmpAbs (w : Word) (s : State) : Host.Outcome State Fault Refusal :=
  .next (readOp (.mem (.abs w)) 4 compareA s)

/-- CMP $DD, absolute,X (R100, R68): 3 bytes, 4 cycles + 1 if the page is crossed (R208). -/
def execCmpAbsX (w : Word) (s : State) : Host.Outcome State Fault Refusal :=
  .next (readOp (.mem (.absX w)) 4 compareA s)

/-- CMP $D9, absolute,Y (R100, R69): 3 bytes, 4 cycles + 1 if the page is crossed (R208). -/
def execCmpAbsY (w : Word) (s : State) : Host.Outcome State Fault Refusal :=
  .next (readOp (.mem (.absY w)) 4 compareA s)

/-- CMP $C1, (indirect,X) (R100, R71): 2 bytes, 6 cycles. -/
def execCmpIndX (b : Byte) (s : State) : Host.Outcome State Fault Refusal :=
  .next (readOp (.mem (.indX b)) 6 compareA s)

/-- CMP $D1, (indirect),Y (R100, R72): 2 bytes, 5 cycles + 1 if the page is crossed (R208). -/
def execCmpIndY (b : Byte) (s : State) : Host.Outcome State Fault Refusal :=
  .next (readOp (.mem (.indY b)) 5 compareA s)

/-- CPX $E0, immediate (R101, R63): 2 bytes, 2 cycles. -/
def execCpxImm (b : Byte) (s : State) : Host.Outcome State Fault Refusal :=
  .next (readOp (.imm b) 2 compareX s)

/-- CPX $E4, zero page (R101, R64): 2 bytes, 3 cycles. -/
def execCpxZp (b : Byte) (s : State) : Host.Outcome State Fault Refusal :=
  .next (readOp (.mem (.zp b)) 3 compareX s)

/-- CPX $EC, absolute (R101, R67): 3 bytes, 4 cycles. -/
def execCpxAbs (w : Word) (s : State) : Host.Outcome State Fault Refusal :=
  .next (readOp (.mem (.abs w)) 4 compareX s)

/-- CPY $C0, immediate (R102, R63): 2 bytes, 2 cycles. -/
def execCpyImm (b : Byte) (s : State) : Host.Outcome State Fault Refusal :=
  .next (readOp (.imm b) 2 compareY s)

/-- CPY $C4, zero page (R102, R64): 2 bytes, 3 cycles. -/
def execCpyZp (b : Byte) (s : State) : Host.Outcome State Fault Refusal :=
  .next (readOp (.mem (.zp b)) 3 compareY s)

/-- CPY $CC, absolute (R102, R67): 3 bytes, 4 cycles. -/
def execCpyAbs (w : Word) (s : State) : Host.Outcome State Fault Refusal :=
  .next (readOp (.mem (.abs w)) 4 compareY s)

/-- INC $E6, zero page (R103, R64): 2 bytes, 5 cycles. -/
def execIncZp (b : Byte) (s : State) : Host.Outcome State Fault Refusal :=
  .next (modifyOp (.zp b) 5 increment s)

/-- INC $F6, zero page,X (R103, R65): 2 bytes, 6 cycles. -/
def execIncZpX (b : Byte) (s : State) : Host.Outcome State Fault Refusal :=
  .next (modifyOp (.zpX b) 6 increment s)

/-- INC $EE, absolute (R103, R67): 3 bytes, 6 cycles. -/
def execIncAbs (w : Word) (s : State) : Host.Outcome State Fault Refusal :=
  .next (modifyOp (.abs w) 6 increment s)

/-- INC $FE, absolute,X (R103, R68): 3 bytes, 7 cycles. -/
def execIncAbsX (w : Word) (s : State) : Host.Outcome State Fault Refusal :=
  .next (modifyOp (.absX w) 7 increment s)

/-- DEC $C6, zero page (R104, R64): 2 bytes, 5 cycles. -/
def execDecZp (b : Byte) (s : State) : Host.Outcome State Fault Refusal :=
  .next (modifyOp (.zp b) 5 decrement s)

/-- DEC $D6, zero page,X (R104, R65): 2 bytes, 6 cycles. -/
def execDecZpX (b : Byte) (s : State) : Host.Outcome State Fault Refusal :=
  .next (modifyOp (.zpX b) 6 decrement s)

/-- DEC $CE, absolute (R104, R67): 3 bytes, 6 cycles. -/
def execDecAbs (w : Word) (s : State) : Host.Outcome State Fault Refusal :=
  .next (modifyOp (.abs w) 6 decrement s)

/-- DEC $DE, absolute,X (R104, R68): 3 bytes, 7 cycles. -/
def execDecAbsX (w : Word) (s : State) : Host.Outcome State Fault Refusal :=
  .next (modifyOp (.absX w) 7 decrement s)

/-- INX $E8, implied (R105, R61): 1 byte, 2 cycles. -/
def execInx (s : State) : Host.Outcome State Fault Refusal :=
  .next (impliedOp 2 (fun u => loadX (u.x + 1) u) s)

/-- INY $C8, implied (R106, R61): 1 byte, 2 cycles. -/
def execIny (s : State) : Host.Outcome State Fault Refusal :=
  .next (impliedOp 2 (fun u => loadY (u.y + 1) u) s)

/-- DEX $CA, implied (R107, R61): 1 byte, 2 cycles. -/
def execDex (s : State) : Host.Outcome State Fault Refusal :=
  .next (impliedOp 2 (fun u => loadX (u.x - 1) u) s)

/-- DEY $88, implied (R108, R61): 1 byte, 2 cycles. -/
def execDey (s : State) : Host.Outcome State Fault Refusal :=
  .next (impliedOp 2 (fun u => loadY (u.y - 1) u) s)

end Sys2Proof.Machine
end

