-- ==== Sys2Proof/Machine/Control.lean ====
section
/-! DEFINITION. Control transfer (45_control.md, R117 to R129): one meaning per instruction, over the shared operations. -/

namespace Sys2Proof.Machine

/-- `JSR`: both operand bytes are read before the pushes (D17), and the address pushed is that of the JSR's last byte
(R118). -/
def jumpSubroutine (target : Word) (s : State) : State := finishAt (pushWord s (s.pc + 2)) target 6

/-- `RTS`: the pulled address plus 1 (R119). -/
def returnSubroutine (s : State) : State :=
  let r := pullWord s
  finishAt r.2 (r.1 + 1) 6

/-- JMP $4C, absolute (R117, R67): 3 bytes, 3 cycles. -/
def execJmpAbs (w : Word) (s : State) : Host.Outcome State Fault Refusal :=
  .next (finishAt s w 3)

/-- JMP $6C, indirect (R117, R70): 3 bytes, 5 cycles. -/
def execJmpInd (w : Word) (s : State) : Host.Outcome State Fault Refusal :=
  .next (finishAt (indirectTarget w s).2 (indirectTarget w s).1 5)

/-- JSR $20, absolute (R118, R67): 3 bytes, 6 cycles. -/
def execJsrAbs (w : Word) (s : State) : Host.Outcome State Fault Refusal :=
  .next (jumpSubroutine w s)

/-- RTS $60, implied (R119, R61): 1 byte, 6 cycles. -/
def execRts (s : State) : Host.Outcome State Fault Refusal :=
  .next (returnSubroutine s)

/-- RTI $40, implied (R120, R61): 1 byte, 6 cycles. -/
def execRti (s : State) : Host.Outcome State Fault Refusal :=
  .next (returnFromException s)

/-- BRK $00, implied (R121, R61): 1 byte, 7 cycles. -/
def execBrk (s : State) : Host.Outcome State Fault Refusal :=
  .next (takeException (s.pc + 2) true irqVector s)

/-- BPL $10, relative (R122, R73): 2 bytes, 2 cycles + the branch cycles (R209). -/
def execBpl (off : Int) (s : State) : Host.Outcome State Fault Refusal :=
  .next (branchOp off (!s.p.n) s)

/-- BMI $30, relative (R123, R73): 2 bytes, 2 cycles + the branch cycles (R209). -/
def execBmi (off : Int) (s : State) : Host.Outcome State Fault Refusal :=
  .next (branchOp off (s.p.n) s)

/-- BVC $50, relative (R124, R73): 2 bytes, 2 cycles + the branch cycles (R209). -/
def execBvc (off : Int) (s : State) : Host.Outcome State Fault Refusal :=
  .next (branchOp off (!s.p.v) s)

/-- BVS $70, relative (R125, R73): 2 bytes, 2 cycles + the branch cycles (R209). -/
def execBvs (off : Int) (s : State) : Host.Outcome State Fault Refusal :=
  .next (branchOp off (s.p.v) s)

/-- BCC $90, relative (R126, R73): 2 bytes, 2 cycles + the branch cycles (R209). -/
def execBcc (off : Int) (s : State) : Host.Outcome State Fault Refusal :=
  .next (branchOp off (!s.p.c) s)

/-- BCS $B0, relative (R127, R73): 2 bytes, 2 cycles + the branch cycles (R209). -/
def execBcs (off : Int) (s : State) : Host.Outcome State Fault Refusal :=
  .next (branchOp off (s.p.c) s)

/-- BNE $D0, relative (R128, R73): 2 bytes, 2 cycles + the branch cycles (R209). -/
def execBne (off : Int) (s : State) : Host.Outcome State Fault Refusal :=
  .next (branchOp off (!s.p.z) s)

/-- BEQ $F0, relative (R129, R73): 2 bytes, 2 cycles + the branch cycles (R209). -/
def execBeq (off : Int) (s : State) : Host.Outcome State Fault Refusal :=
  .next (branchOp off (s.p.z) s)

end Sys2Proof.Machine
end

