-- ==== Sys2Proof/Machine/FlagOps.lean ====
section
/-! DEFINITION. Flag instructions and NOP (46_flags_misc.md, R130 to R137): one meaning per instruction, over the shared operations. -/

namespace Sys2Proof.Machine

/-- CLC $18, implied (R130, R61): 1 byte, 2 cycles. -/
def execClc (s : State) : Host.Outcome State Fault Refusal :=
  .next (impliedOp 2 (fun u => setP u { u.p with c := false }) s)

/-- SEC $38, implied (R131, R61): 1 byte, 2 cycles. -/
def execSec (s : State) : Host.Outcome State Fault Refusal :=
  .next (impliedOp 2 (fun u => setP u { u.p with c := true }) s)

/-- CLD $D8, implied (R132, R61): 1 byte, 2 cycles. -/
def execCld (s : State) : Host.Outcome State Fault Refusal :=
  .next (impliedOp 2 (fun u => setP u { u.p with d := false }) s)

/-- SED $F8, implied (R133, R61): 1 byte, 2 cycles. -/
def execSed (s : State) : Host.Outcome State Fault Refusal :=
  .next (impliedOp 2 (fun u => setP u { u.p with d := true }) s)

/-- CLI $58, implied (R134, R61): 1 byte, 2 cycles. -/
def execCli (s : State) : Host.Outcome State Fault Refusal :=
  .next (impliedOp 2 (fun u => setP u { u.p with i := false }) s)

/-- SEI $78, implied (R135, R61): 1 byte, 2 cycles. -/
def execSei (s : State) : Host.Outcome State Fault Refusal :=
  .next (impliedOp 2 (fun u => setP u { u.p with i := true }) s)

/-- CLV $B8, implied (R136, R61): 1 byte, 2 cycles. -/
def execClv (s : State) : Host.Outcome State Fault Refusal :=
  .next (impliedOp 2 (fun u => setP u { u.p with v := false }) s)

/-- NOP $EA, implied (R137, R61): 1 byte, 2 cycles. -/
def execNop (s : State) : Host.Outcome State Fault Refusal :=
  .next (impliedOp 2 (fun u => u) s)

end Sys2Proof.Machine
end

