-- ==== Sys2Proof/Machine/Logic.lean ====
section
/-! DEFINITION. Logic, bit test, shifts and rotates (44_logic_shift.md, R109 to R116): one meaning per instruction, over the shared operations. -/

namespace Sys2Proof.Machine

/-- AND on an operand (R109). -/
def andA (m : Byte) (s : State) : State := setP (setA s (s.a &&& m)) (setNZ (s.a &&& m) s.p)

/-- ORA on an operand (R110). -/
def orA (m : Byte) (s : State) : State := setP (setA s (s.a ||| m)) (setNZ (s.a ||| m) s.p)

/-- EOR on an operand (R111). -/
def eorA (m : Byte) (s : State) : State := setP (setA s (s.a ^^^ m)) (setNZ (s.a ^^^ m) s.p)

/-- BIT on an operand: only the flags change (R112). -/
def bitTest (m : Byte) (s : State) : State := setP s (flagsOfBit s.a m s.p)

/-- A shift or rotate of a byte: the result and the flags (R113 to R116). -/
def shiftByte (f : Byte → Bool → ByteCarry) (v : Byte) (p : Flags) : Byte × Flags :=
  let r := f v p.c
  (r.val, flagsOfShift r p)

/-- A shift or rotate in accumulator mode (R62). -/
def shiftA (f : Byte → Bool → ByteCarry) (s : State) : State :=
  let r := shiftByte f s.a s.p
  setP (setA s r.1) r.2

/-- AND $29, immediate (R109, R63): 2 bytes, 2 cycles. -/
def execAndImm (b : Byte) (s : State) : Host.Outcome State Fault Refusal :=
  .next (readOp (.imm b) 2 andA s)

/-- AND $25, zero page (R109, R64): 2 bytes, 3 cycles. -/
def execAndZp (b : Byte) (s : State) : Host.Outcome State Fault Refusal :=
  .next (readOp (.mem (.zp b)) 3 andA s)

/-- AND $35, zero page,X (R109, R65): 2 bytes, 4 cycles. -/
def execAndZpX (b : Byte) (s : State) : Host.Outcome State Fault Refusal :=
  .next (readOp (.mem (.zpX b)) 4 andA s)

/-- AND $2D, absolute (R109, R67): 3 bytes, 4 cycles. -/
def execAndAbs (w : Word) (s : State) : Host.Outcome State Fault Refusal :=
  .next (readOp (.mem (.abs w)) 4 andA s)

/-- AND $3D, absolute,X (R109, R68): 3 bytes, 4 cycles + 1 if the page is crossed (R208). -/
def execAndAbsX (w : Word) (s : State) : Host.Outcome State Fault Refusal :=
  .next (readOp (.mem (.absX w)) 4 andA s)

/-- AND $39, absolute,Y (R109, R69): 3 bytes, 4 cycles + 1 if the page is crossed (R208). -/
def execAndAbsY (w : Word) (s : State) : Host.Outcome State Fault Refusal :=
  .next (readOp (.mem (.absY w)) 4 andA s)

/-- AND $21, (indirect,X) (R109, R71): 2 bytes, 6 cycles. -/
def execAndIndX (b : Byte) (s : State) : Host.Outcome State Fault Refusal :=
  .next (readOp (.mem (.indX b)) 6 andA s)

/-- AND $31, (indirect),Y (R109, R72): 2 bytes, 5 cycles + 1 if the page is crossed (R208). -/
def execAndIndY (b : Byte) (s : State) : Host.Outcome State Fault Refusal :=
  .next (readOp (.mem (.indY b)) 5 andA s)

/-- ORA $09, immediate (R110, R63): 2 bytes, 2 cycles. -/
def execOraImm (b : Byte) (s : State) : Host.Outcome State Fault Refusal :=
  .next (readOp (.imm b) 2 orA s)

/-- ORA $05, zero page (R110, R64): 2 bytes, 3 cycles. -/
def execOraZp (b : Byte) (s : State) : Host.Outcome State Fault Refusal :=
  .next (readOp (.mem (.zp b)) 3 orA s)

/-- ORA $15, zero page,X (R110, R65): 2 bytes, 4 cycles. -/
def execOraZpX (b : Byte) (s : State) : Host.Outcome State Fault Refusal :=
  .next (readOp (.mem (.zpX b)) 4 orA s)

/-- ORA $0D, absolute (R110, R67): 3 bytes, 4 cycles. -/
def execOraAbs (w : Word) (s : State) : Host.Outcome State Fault Refusal :=
  .next (readOp (.mem (.abs w)) 4 orA s)

/-- ORA $1D, absolute,X (R110, R68): 3 bytes, 4 cycles + 1 if the page is crossed (R208). -/
def execOraAbsX (w : Word) (s : State) : Host.Outcome State Fault Refusal :=
  .next (readOp (.mem (.absX w)) 4 orA s)

/-- ORA $19, absolute,Y (R110, R69): 3 bytes, 4 cycles + 1 if the page is crossed (R208). -/
def execOraAbsY (w : Word) (s : State) : Host.Outcome State Fault Refusal :=
  .next (readOp (.mem (.absY w)) 4 orA s)

/-- ORA $01, (indirect,X) (R110, R71): 2 bytes, 6 cycles. -/
def execOraIndX (b : Byte) (s : State) : Host.Outcome State Fault Refusal :=
  .next (readOp (.mem (.indX b)) 6 orA s)

/-- ORA $11, (indirect),Y (R110, R72): 2 bytes, 5 cycles + 1 if the page is crossed (R208). -/
def execOraIndY (b : Byte) (s : State) : Host.Outcome State Fault Refusal :=
  .next (readOp (.mem (.indY b)) 5 orA s)

/-- EOR $49, immediate (R111, R63): 2 bytes, 2 cycles. -/
def execEorImm (b : Byte) (s : State) : Host.Outcome State Fault Refusal :=
  .next (readOp (.imm b) 2 eorA s)

/-- EOR $45, zero page (R111, R64): 2 bytes, 3 cycles. -/
def execEorZp (b : Byte) (s : State) : Host.Outcome State Fault Refusal :=
  .next (readOp (.mem (.zp b)) 3 eorA s)

/-- EOR $55, zero page,X (R111, R65): 2 bytes, 4 cycles. -/
def execEorZpX (b : Byte) (s : State) : Host.Outcome State Fault Refusal :=
  .next (readOp (.mem (.zpX b)) 4 eorA s)

/-- EOR $4D, absolute (R111, R67): 3 bytes, 4 cycles. -/
def execEorAbs (w : Word) (s : State) : Host.Outcome State Fault Refusal :=
  .next (readOp (.mem (.abs w)) 4 eorA s)

/-- EOR $5D, absolute,X (R111, R68): 3 bytes, 4 cycles + 1 if the page is crossed (R208). -/
def execEorAbsX (w : Word) (s : State) : Host.Outcome State Fault Refusal :=
  .next (readOp (.mem (.absX w)) 4 eorA s)

/-- EOR $59, absolute,Y (R111, R69): 3 bytes, 4 cycles + 1 if the page is crossed (R208). -/
def execEorAbsY (w : Word) (s : State) : Host.Outcome State Fault Refusal :=
  .next (readOp (.mem (.absY w)) 4 eorA s)

/-- EOR $41, (indirect,X) (R111, R71): 2 bytes, 6 cycles. -/
def execEorIndX (b : Byte) (s : State) : Host.Outcome State Fault Refusal :=
  .next (readOp (.mem (.indX b)) 6 eorA s)

/-- EOR $51, (indirect),Y (R111, R72): 2 bytes, 5 cycles + 1 if the page is crossed (R208). -/
def execEorIndY (b : Byte) (s : State) : Host.Outcome State Fault Refusal :=
  .next (readOp (.mem (.indY b)) 5 eorA s)

/-- BIT $24, zero page (R112, R64): 2 bytes, 3 cycles. -/
def execBitZp (b : Byte) (s : State) : Host.Outcome State Fault Refusal :=
  .next (readOp (.mem (.zp b)) 3 bitTest s)

/-- BIT $2C, absolute (R112, R67): 3 bytes, 4 cycles. -/
def execBitAbs (w : Word) (s : State) : Host.Outcome State Fault Refusal :=
  .next (readOp (.mem (.abs w)) 4 bitTest s)

/-- ASL $0A, accumulator (R113, R62): 1 byte, 2 cycles. -/
def execAslAcc (s : State) : Host.Outcome State Fault Refusal :=
  .next (impliedOp 2 (shiftA shiftAsl) s)

/-- ASL $06, zero page (R113, R64): 2 bytes, 5 cycles. -/
def execAslZp (b : Byte) (s : State) : Host.Outcome State Fault Refusal :=
  .next (modifyOp (.zp b) 5 (shiftByte shiftAsl) s)

/-- ASL $16, zero page,X (R113, R65): 2 bytes, 6 cycles. -/
def execAslZpX (b : Byte) (s : State) : Host.Outcome State Fault Refusal :=
  .next (modifyOp (.zpX b) 6 (shiftByte shiftAsl) s)

/-- ASL $0E, absolute (R113, R67): 3 bytes, 6 cycles. -/
def execAslAbs (w : Word) (s : State) : Host.Outcome State Fault Refusal :=
  .next (modifyOp (.abs w) 6 (shiftByte shiftAsl) s)

/-- ASL $1E, absolute,X (R113, R68): 3 bytes, 7 cycles. -/
def execAslAbsX (w : Word) (s : State) : Host.Outcome State Fault Refusal :=
  .next (modifyOp (.absX w) 7 (shiftByte shiftAsl) s)

/-- LSR $4A, accumulator (R114, R62): 1 byte, 2 cycles. -/
def execLsrAcc (s : State) : Host.Outcome State Fault Refusal :=
  .next (impliedOp 2 (shiftA shiftLsr) s)

/-- LSR $46, zero page (R114, R64): 2 bytes, 5 cycles. -/
def execLsrZp (b : Byte) (s : State) : Host.Outcome State Fault Refusal :=
  .next (modifyOp (.zp b) 5 (shiftByte shiftLsr) s)

/-- LSR $56, zero page,X (R114, R65): 2 bytes, 6 cycles. -/
def execLsrZpX (b : Byte) (s : State) : Host.Outcome State Fault Refusal :=
  .next (modifyOp (.zpX b) 6 (shiftByte shiftLsr) s)

/-- LSR $4E, absolute (R114, R67): 3 bytes, 6 cycles. -/
def execLsrAbs (w : Word) (s : State) : Host.Outcome State Fault Refusal :=
  .next (modifyOp (.abs w) 6 (shiftByte shiftLsr) s)

/-- LSR $5E, absolute,X (R114, R68): 3 bytes, 7 cycles. -/
def execLsrAbsX (w : Word) (s : State) : Host.Outcome State Fault Refusal :=
  .next (modifyOp (.absX w) 7 (shiftByte shiftLsr) s)

/-- ROL $2A, accumulator (R115, R62): 1 byte, 2 cycles. -/
def execRolAcc (s : State) : Host.Outcome State Fault Refusal :=
  .next (impliedOp 2 (shiftA shiftRol) s)

/-- ROL $26, zero page (R115, R64): 2 bytes, 5 cycles. -/
def execRolZp (b : Byte) (s : State) : Host.Outcome State Fault Refusal :=
  .next (modifyOp (.zp b) 5 (shiftByte shiftRol) s)

/-- ROL $36, zero page,X (R115, R65): 2 bytes, 6 cycles. -/
def execRolZpX (b : Byte) (s : State) : Host.Outcome State Fault Refusal :=
  .next (modifyOp (.zpX b) 6 (shiftByte shiftRol) s)

/-- ROL $2E, absolute (R115, R67): 3 bytes, 6 cycles. -/
def execRolAbs (w : Word) (s : State) : Host.Outcome State Fault Refusal :=
  .next (modifyOp (.abs w) 6 (shiftByte shiftRol) s)

/-- ROL $3E, absolute,X (R115, R68): 3 bytes, 7 cycles. -/
def execRolAbsX (w : Word) (s : State) : Host.Outcome State Fault Refusal :=
  .next (modifyOp (.absX w) 7 (shiftByte shiftRol) s)

/-- ROR $6A, accumulator (R116, R62): 1 byte, 2 cycles. -/
def execRorAcc (s : State) : Host.Outcome State Fault Refusal :=
  .next (impliedOp 2 (shiftA shiftRor) s)

/-- ROR $66, zero page (R116, R64): 2 bytes, 5 cycles. -/
def execRorZp (b : Byte) (s : State) : Host.Outcome State Fault Refusal :=
  .next (modifyOp (.zp b) 5 (shiftByte shiftRor) s)

/-- ROR $76, zero page,X (R116, R65): 2 bytes, 6 cycles. -/
def execRorZpX (b : Byte) (s : State) : Host.Outcome State Fault Refusal :=
  .next (modifyOp (.zpX b) 6 (shiftByte shiftRor) s)

/-- ROR $6E, absolute (R116, R67): 3 bytes, 6 cycles. -/
def execRorAbs (w : Word) (s : State) : Host.Outcome State Fault Refusal :=
  .next (modifyOp (.abs w) 6 (shiftByte shiftRor) s)

/-- ROR $7E, absolute,X (R116, R68): 3 bytes, 7 cycles. -/
def execRorAbsX (w : Word) (s : State) : Host.Outcome State Fault Refusal :=
  .next (modifyOp (.absX w) 7 (shiftByte shiftRor) s)

end Sys2Proof.Machine
end

