-- ==== Sys2Proof/Machine/Transfer.lean ====
section
/-! DEFINITION. Register transfers and the stack (42_transfer_stack.md, R85 to R94): one meaning per instruction, over the shared operations. -/

namespace Sys2Proof.Machine

/-- `PLA`: `A <- Pull(); SetNZ(A)` (R93). -/
def pullA (s : State) : State :=
  let r := pull s
  setP (setA r.2 r.1) (setNZ r.1 r.2.p)

/-- `PLP`: the six flags from the pulled byte (R94). -/
def pullFlags (s : State) : State :=
  let r := pull s
  setP r.2 (flagsOf r.1)

/-- TAX $AA, implied (R85, R61): 1 byte, 2 cycles. -/
def execTax (s : State) : Host.Outcome State Fault Refusal :=
  .next (impliedOp 2 (fun u => loadX u.a u) s)

/-- TAY $A8, implied (R86, R61): 1 byte, 2 cycles. -/
def execTay (s : State) : Host.Outcome State Fault Refusal :=
  .next (impliedOp 2 (fun u => loadY u.a u) s)

/-- TXA $8A, implied (R87, R61): 1 byte, 2 cycles. -/
def execTxa (s : State) : Host.Outcome State Fault Refusal :=
  .next (impliedOp 2 (fun u => loadA u.x u) s)

/-- TYA $98, implied (R88, R61): 1 byte, 2 cycles. -/
def execTya (s : State) : Host.Outcome State Fault Refusal :=
  .next (impliedOp 2 (fun u => loadA u.y u) s)

/-- TSX $BA, implied (R89, R61): 1 byte, 2 cycles. -/
def execTsx (s : State) : Host.Outcome State Fault Refusal :=
  .next (impliedOp 2 (fun u => loadX u.sp u) s)

/-- TXS $9A, implied (R90, R61): 1 byte, 2 cycles. -/
def execTxs (s : State) : Host.Outcome State Fault Refusal :=
  .next (impliedOp 2 (fun u => setSp u u.x) s)

/-- PHA $48, implied (R91, R61): 1 byte, 3 cycles. -/
def execPha (s : State) : Host.Outcome State Fault Refusal :=
  .next (impliedOp 3 (fun u => push u u.a) s)

/-- PHP $08, implied (R92, R61): 1 byte, 3 cycles. -/
def execPhp (s : State) : Host.Outcome State Fault Refusal :=
  .next (impliedOp 3 (fun u => push u (pImage true u.p)) s)

/-- PLA $68, implied (R93, R61): 1 byte, 4 cycles. -/
def execPla (s : State) : Host.Outcome State Fault Refusal :=
  .next (impliedOp 4 pullA s)

/-- PLP $28, implied (R94, R61): 1 byte, 4 cycles. -/
def execPlp (s : State) : Host.Outcome State Fault Refusal :=
  .next (impliedOp 4 pullFlags s)

end Sys2Proof.Machine
end

