-- ==== Sys2Proof/Machine/Loop.lean ====
section
/-! DEFINITION. The CPU step (R138), the iteration (R183 to R185), the frame (R186 to R189), the host's moves (R190, R191,
R194) and the snapshot (R164, R165), and the machine-loop step that `step` is. -/

namespace Sys2Proof.Machine

/-! ## Fetch and the CPU step -/

/-- What a fetch finds: an illegal opcode, or an instruction; with the state after the bus reads. -/
inductive Fetched where
  | illegal (op : Byte) (s : State)
  | instr (i : Instr) (s : State)

/-- Fetch at PC: the opcode byte, then as many operand bytes as its shape has, each an ordinary bus read (R54, R57, R74). For
an illegal opcode no operand byte is read (R76). PC is left at the opcode (R21). -/
def fetch (s : State) : Fetched :=
  let op := memRead s s.pc
  match lookupShape op.1 with
  | none => .illegal op.1 op.2
  | some (.f1 i) => .instr i op.2
  | some (.f2 k) =>
    let b1 := memRead op.2 (s.pc + 1)
    .instr (k b1.1) b1.2
  | some (.f3 k) =>
    let b1 := memRead op.2 (s.pc + 1)
    let b2 := memRead b1.2 (s.pc + 2)
    .instr (k (mkWord b1.1 b2.1)) b2.2

/-- The fatal fault: it records the opcode and its address, and charges no cycles (R147). -/
def raiseFatal (op : Byte) (s : State) : State :=
  { s with fault := some { reason := .undefinedOpcode, opcode := op, address := s.pc }, stepCycles := 0 }

/-- `Step()` (R138): no step after a fault; else NMI; else IRQ when I = 0; else the instruction at PC. The count it returns
is left in `stepCycles`. -/
def cpuStep (s : State) : Host.Outcome State Fault Refusal :=
  if s.fault.isSome then .fault .halted
  else if s.nmiPending then .next (interruptEntry nmiVector { s with nmiPending := false })
  else if s.irqPending && !s.p.i then .next (interruptEntry irqVector { s with irqPending := false })
  else
    match fetch s with
    | .illegal op u => .next (raiseFatal op u)
    | .instr i u => exec i u

/-! ## The iteration -/

/-- The counters and the three ticks by the step's count (R183). -/
def tickAll (s : State) : State :=
  { s with
    cycles := s.cycles + s.stepCycles
    frameCycles := s.frameCycles + s.stepCycles
    vic := vicTick s.stepCycles s.vic
    ciaA := ciaTick s.stepCycles s.ciaA
    ciaB := ciaTick s.stepCycles s.ciaB }

/-- `SampleLines()`: the IRQ level (R184) and the NMI edge (R185). -/
def sampleLines (s : State) : State :=
  { s with
    irqPending := vicIrqLine s.vic || ciaLine s.ciaA
    nmiPending := s.nmiPending || (ciaLine s.ciaB && !s.nmiLinePrev)
    nmiLinePrev := ciaLine s.ciaB }

/-- What follows a CPU step in an iteration: after a fatal fault the loop halts at once, with no tick and no sample (R183,
R189); otherwise the ticks and the sample. -/
def afterStep (s : State) : State :=
  if s.fault.isSome then { s with halted := true } else sampleLines (tickAll s)

/-- Apply a function to a next state. -/
def onNext (o : Host.Outcome State Fault Refusal) (f : State → State) : Host.Outcome State Fault Refusal :=
  match o with
  | .next s => .next (f s)
  | .fault r => .fault r
  | .refused r => .refused r

/-- `Iterate()` (R183). -/
def iterate (s : State) : Host.Outcome State Fault Refusal := onNext (cpuStep s) afterStep

/-! ## Host events and the frame -/

/-- The column byte of the matrix with row `r` down or up (R190). -/
def setKeyRow (col : Byte) (r : Fin 8) (down : Bool) : Byte :=
  if down then col ||| (1#8 <<< r.val) else col &&& ~~~(1#8 <<< r.val)

/-- `ApplyEvent(e)`: a matrix key, or the RESTORE pulse, whose release does nothing (R190, R191). -/
def applyEvent (s : State) (e : KeyEvent) : State :=
  match e.pos with
  | .matrix c r => { s with keys := s.keys.set c.val (setKeyRow s.keys[c] r e.down) }
  | .restore => if e.down then { s with nmiPending := true } else s

/-- Apply events in order (R186, R190). -/
def applyEvents (es : List KeyEvent) (s : State) : State := es.foldl applyEvent s

/-- The start of `Frame(events)`: the waiting events are applied (R186). -/
def takeEvents (s : State) : State := applyEvents s.events { s with events := [] }

/-- Enter the frame's loop (R186). -/
def openFrame (s : State) : State := { s with frameCycles := 0, frameOpen := true }

/-- After an iteration: the frame ends when the raster has wrapped, which consumes `frame_available`, or when the budget is
used up (R186). A halted loop has returned instead (R189). -/
def closeFrame (s : State) : State :=
  if s.halted then s
  else if s.vic.frameAvailable then { s with vic := { s.vic with frameAvailable := false }, frameOpen := false }
  else if Config.cycleBudget ≤ s.frameCycles then { s with frameOpen := false }
  else s

/-- One pass of the frame's loop: the shutdown test, the iteration, the end-of-frame test (R186, R188). -/
def loopPass (s : State) : Host.Outcome State Fault Refusal :=
  if s.shutdown then .fault .shutdownExit else onNext (iterate s) closeFrame

/-- One move of the machine loop (log 8). Between frames it first applies the waiting events; when the host has paused the
machine the frame ends there (R187), otherwise the frame opens and its loop makes one pass. A halted loop makes no move. -/
def loopStep (s : State) : Host.Outcome State Fault Refusal :=
  if s.halted || s.fault.isSome then .fault .halted
  else if s.frameOpen then loopPass s
  else if s.paused then .next (takeEvents s)
  else loopPass (openFrame (takeEvents s))

/-! ## The snapshot -/

/-- The VIC-II's 16 KiB bank, from CIA-B port A bits 1 to 0, inverted (R164). -/
def vicBank (s : State) : Nat := (3 - ((ciaPortA s.ciaB) &&& 0x03).toNat) * 0x4000

/-- The video matrix base (R164). -/
def videoBase (s : State) : Nat := vicBank s + (s.vic.vreg[0x18] >>> 4).toNat * 0x0400

/-- The character base (R164); no rule uses it. -/
def charBase (s : State) : Nat := vicBank s + ((s.vic.vreg[0x18] >>> 1) &&& 0x07).toNat * 0x0800

/-- One character cell of a snapshot (R165). -/
structure Cell where
  screenCode : Byte
  color      : Nibble
  deriving DecidableEq, Repr

/-- The framebuffer handed to the UI (R165): 25 rows of 40 cells, the border and background colors, and no cursor. -/
structure Snapshot where
  cells      : List (List Cell)
  border     : Nibble
  background : Nibble
  cursorPos  : Option (Nat × Nat)
  deriving DecidableEq, Repr

/-- The cell at row `r`, column `c`: straight from RAM and color RAM (R165, R56). -/
def snapshotCell (s : State) (r c : Nat) : Cell :=
  { screenCode := ramByte s (BitVec.ofNat 16 (videoBase s + r * 40 + c)), color := colorCell s (r * 40 + c) }

/-- `Snapshot()` (R165). It reads the state and writes none. -/
def snapshot (s : State) : Snapshot :=
  { cells := (List.range 25).map (fun r => (List.range 40).map (fun c => snapshotCell s r c))
    border := s.vic.vreg[0x20].setWidth 4
    background := s.vic.vreg[0x21].setWidth 4
    cursorPos := none }

/-! ## `Frame(events)` as one call -/

/-- How a call of `Frame` returns (R186, R188, R189). -/
inductive FrameResult where
  /-- A snapshot is emitted and the loop yields to the host. -/
  | emitted (snap : Snapshot) (s : State)
  /-- The machine was already halted: nothing is emitted. -/
  | alreadyHalted (s : State)
  /-- Exit code 0 after a shutdown request (R188). -/
  | exit0 (s : State)
  /-- Exit code 3: the final snapshot and, in the state, the fault record (R189). -/
  | exit3 (snap : Snapshot) (s : State)
  /-- An iteration stopped although the machine was not halted. No rule reaches it. -/
  | stopped (r : Fault)
  | refused (r : Refusal)

/-- The loop of `Frame` (R186). `fuel` bounds the iterations; every iteration adds at least 2 cycles, so a frame ends within
`CYCLE_BUDGET` of them. -/
def frameLoop : Nat → State → FrameResult
  | 0, s => .emitted (snapshot s) s
  | k + 1, s =>
    if s.shutdown then .exit0 s
    else
      match iterate s with
      | .fault r => .stopped r
      | .refused r => .refused r
      | .next u =>
        if u.halted then .exit3 (snapshot u) u
        else if u.vic.frameAvailable then
          let t := { u with vic := { u.vic with frameAvailable := false }, frameOpen := false }
          .emitted (snapshot t) t
        else if Config.cycleBudget ≤ u.frameCycles then
          let t := { u with frameOpen := false }
          .emitted (snapshot t) t
        else frameLoop k u

/-- `Frame(events)` (R186). -/
def frame (events : List KeyEvent) (s : State) : FrameResult :=
  let u := applyEvents events s
  if u.halted then .alreadyHalted u
  else if u.paused then .emitted (snapshot u) u
  else frameLoop Config.cycleBudget (openFrame u)

/-! ## The host's moves (R194) -/

/-- The host sends a key event; the next frame applies it (R190, R194). -/
def postEvent (e : KeyEvent) (s : State) : State := { s with events := s.events ++ [e] }

/-- The host sets or clears the pause flag (R187, R194). -/
def setPaused (b : Bool) (s : State) : State := { s with paused := b }

/-- The host requests shutdown (R188, R194). -/
def requestShutdown (s : State) : State := { s with shutdown := true }

/-! ## Placing a program -/

/-- Store a byte where a read of the address takes it from: RAM, or the ROM image behind the address. None where the address
reads the port or an IO device, which hold no program bytes (log 12). -/
def placeByte (s : State) (a : Word) (v : Byte) : Option State :=
  match readSource s a with
  | .ram => some (setRam s a v)
  | .basic => some { s with romBasic := Memory.write Config.basicFill s.romBasic (a.toNat - 0xA000) v }
  | .kernal => some { s with romKernal := Memory.write Config.kernalFill s.romKernal (a.toNat - 0xE000) v }
  | .charRom => some { s with romChar := Memory.write Config.charFill s.romChar (a.toNat - 0xD000) v }
  | .port | .io => none

/-- Store bytes at consecutive addresses. -/
def placeBytes : State → Word → List Byte → Option State
  | s, _, [] => some s
  | s, a, v :: vs =>
    match placeByte s a v with
    | none => none
    | some u => placeBytes u (a + 1) vs

/-- A key event that does not pulse NMI. -/
def noPulse (e : KeyEvent) : Bool := !(decide (e.pos = .restore) && e.down)

/-- The state with everything out of the way that would keep the very next step from fetching: no fault, no halt, no
shutdown, no pause between frames, no NMI, no IRQ that would be taken (log 12). -/
def readyToFetch (s : State) : State :=
  { s with
    halted := false, fault := none, shutdown := false, nmiPending := false
    irqPending := s.irqPending && s.p.i
    paused := s.paused && s.frameOpen
    events := if s.frameOpen then s.events else s.events.filter noPulse }

/-- The address used when PC does not point at three bytes of RAM or ROM: $C000, which is RAM in every configuration (R40,
log 12). -/
def fallbackPc : Word := 0xC000

/-- Put bytes where the next step fetches (log 12). -/
def placeProgram (s : State) (bs : List Byte) : State :=
  let r := readyToFetch s
  match placeBytes r r.pc bs with
  | some u => u
  | none =>
    match placeBytes { r with pc := fallbackPc } fallbackPc bs with
    | some u => u
    | none => r

end Sys2Proof.Machine
end

