-- ==== Sys2Proof/Machine/Startup.lean ====
section
/-! DEFINITION. Power-on and reset (70_reset_and_hazards.md section 1, R193): the power-on state for any inputs and draws of
R8, the reset procedure, and the start-up with its length check. -/

namespace Sys2Proof.Machine

/-- The inputs and draws of R8 at power-on: the three ROM images as byte arrays, `RAM_INIT`, `COLOR_INIT` and `AXY_INIT`. RAM
and color RAM are given in the canonical form of `Memory.wf`. -/
structure PowerOn where
  romBasic  : List Byte
  romKernal : List Byte
  romChar   : List Byte
  ram       : List Host.Cell
  color     : List (Nat × Nibble)
  a : Byte
  x : Byte
  y : Byte

/-- The ROM images have the exact lengths (R193). -/
def PowerOn.lengthsOk (i : PowerOn) : Bool :=
  decide (i.romBasic.length = 8192) && decide (i.romKernal.length = 8192) && decide (i.romChar.length = 4096)

/-- The power-on state before `reset()`: every row of R34 that reset leaves unchanged. S, PC, the flags and the pending bits
are written by `reset()` and stand at 0 until then. -/
def powerOn (i : PowerOn) : State :=
  { a := i.a, x := i.x, y := i.y, sp := 0, pc := 0
    p := { n := false, v := false, d := false, i := false, z := false, c := false }
    nmiPending := false, irqPending := false, cycles := 0, fault := none, stepCycles := 0
    ram := i.ram
    romBasic := Memory.ofBytes Config.basicFill 0 i.romBasic
    romKernal := Memory.ofBytes Config.kernalFill 0 i.romKernal
    romChar := Memory.ofBytes Config.charFill 0 i.romChar
    ddr := 0, data := 0, color := i.color, colorDraws := 0
    vic := Vic.reset, ciaA := Cia.reset, ciaB := Cia.reset, keys := Vector.replicate 8 0
    nmiLinePrev := false, frameCycles := 0, paused := false, shutdown := false, halted := false
    frameOpen := false, events := [] }

/-- `reset()` (R197): PC from the RESET vector through the bus, S = $FD, P = $24, no pending interrupt. Nothing is pushed, no
cycle is charged, and everything else is left as it is. -/
def cpuReset (s : State) : State :=
  let v := read16 s resetVector
  { v.2 with
    pc := v.1, sp := 0xFD
    p := { n := false, v := false, d := false, i := true, z := false, c := false }
    nmiPending := false, irqPending := false }

/-- How start-up ends (R193, R195). -/
inductive Startup where
  /-- Exit code 2: a ROM image has the wrong length; the core is not built. -/
  | exit2
  /-- The core runs from this state. -/
  | running (s : State)

/-- Start-up: the length check, the power-on state, `reset()` (R193, R198). -/
def startup (i : PowerOn) : Startup := if i.lengthsOk then .running (cpuReset (powerOn i)) else .exit2

/-- The inputs of `State.reset`: the test images of 95_test_vectors.md section 1 and the draws of `Config` (logs 1 to 4). -/
def testPowerOn : PowerOn :=
  { romBasic := List.replicate 8192 0xBB
    romKernal := List.replicate 8186 0xEE ++ [0x43, 0xFE, 0xE2, 0xFC, 0x48, 0xFF]
    romChar := List.replicate 4096 0xCC
    ram := [], color := [], a := Config.aInit, x := Config.xInit, y := Config.yInit }

end Sys2Proof.Machine
end

