-- ==== Sys2Proof/Machine/Step.lean ====
section
/-! DEFINITION. The step of the machine, and where a program is placed for it. -/

namespace Sys2Proof.Machine

/-- One step: one move of the machine loop, which runs one `Iterate()` (R183, R186, log 8). -/
def step (s : State) : Host.Outcome State Fault Refusal := loopStep s

/-- `s` with the instruction whose bits are `w` (the bits from `nbits` up are 0) stored where the very next step fetches
(log 12). -/
def State.withFetchWord (s : State) (nbits w : Nat) : State := placeProgram s (tableBytes nbits w)

end Sys2Proof.Machine
end

