-- ==== Sys2Proof/Safety.lean ====
section
/-! DEFINITION. The terms claims are stated in: which states are legal (the ranges of R16 to R33), when the machine can take a
step, and when a guest program has ended. -/

namespace Sys2Proof.Machine

/-- A VIC-II in its ranges: raster 0 to 311, accumulator 0 to 62 (R30), latch bits 1 to 3 never set (R160). -/
def vicLegal (v : Vic) : Bool := decide (v.raster.toNat < 312) && decide (v.acc < 63) && decide (v.latch.toNat < 2)

/-- A CIA in its ranges: bit 4 of the control registers is not stored (R31, R175), latch bits 2 to 4 are never set (R181). -/
def ciaLegal (c : Cia) : Bool := !c.cra.getLsbD 4 && !c.crb.getLsbD 4 && decide (c.icrLatch.toNat < 4)

/-- The legal states: canonical memories, chips in their ranges, the loop halted exactly when a fault is recorded (R189), and
no frame left open or flagged once it has ended (R186). -/
def Legal (s : State) : Bool :=
  memoriesWf s && vicLegal s.vic && ciaLegal s.ciaA && ciaLegal s.ciaB && (s.halted == s.fault.isSome) &&
    (!s.frameOpen || decide (s.frameCycles < Config.cycleBudget)) && !s.vic.frameAvailable

/-- The loop will run an iteration at the next step: it has not returned, and it is not paused between frames (R186 to
R189). -/
def Runnable (s : State) : Prop :=
  s.halted = false ∧ s.fault = none ∧ s.shutdown = false ∧ (s.frameOpen = true ∨ s.paused = false)

/-- The state in which the next step's iteration begins: between frames, the events are applied and the frame opens first
(R186). -/
def atIteration (s : State) : State := if s.frameOpen then s else openFrame (takeEvents s)

/-- No interrupt will be serviced: the step fetches (R138). -/
def NoInterrupt (s : State) : Prop := s.nmiPending = false ∧ (s.irqPending = false ∨ s.p.i = true)

/-- A guest program run as a test has ended: the instruction at PC is `JMP` absolute to its own address (R196, D31). -/
def atTrap (s : State) : Bool :=
  match fetch s with
  | .instr (.jmpAbs w) _ => decide (w = s.pc)
  | _ => false

end Sys2Proof.Machine
end

