-- ==== Sys2Proof/Certificates/Slice0/Obligations.lean ====
section
/-! DEFINITION. The statements for the provers: what the rules of the spec say the instructions and the machine do. -/

open Sys2Proof Sys2Proof.Machine

/-! ### Vocabulary of the statements -/

/-- N and Z of a byte, in numbers (R12). -/
def Sys2Proof.Forms.nz (v : Byte) (f : Flags) : Flags :=
  { f with n := decide (128 ≤ v.toNat), z := decide (v.toNat = 0) }

/-- `t` is `u` but for the CPU's registers, flags, PC and the returned count: memory, chips, port, pending bits, counters and
loop state are those of `u`. -/
def Sys2Proof.Forms.CpuOnly (u t : State) : Prop :=
  t = { u with a := t.a, x := t.x, y := t.y, sp := t.sp, pc := t.pc, p := t.p, stepCycles := t.stepCycles }

/-- `t` is `s` but for RAM and the CPU's registers, flags, PC and the returned count. -/
def Sys2Proof.Forms.RamAndCpuOnly (s t : State) : Prop :=
  t = { s with
    ram := t.ram, a := t.a, x := t.x, y := t.y, sp := t.sp, pc := t.pc, p := t.p, stepCycles := t.stepCycles }

/-- `t` is `s` but for the CPU's registers and flags and the effects a bus read may have: a cleared ICR latch, a color draw
(R49). -/
def Sys2Proof.Forms.ReadsOnly (s t : State) : Prop :=
  t = { s with
    a := t.a, x := t.x, y := t.y, sp := t.sp, pc := t.pc, p := t.p, stepCycles := t.stepCycles, colorDraws := t.colorDraws
    ciaA := { s.ciaA with icrLatch := t.ciaA.icrLatch }, ciaB := { s.ciaB with icrLatch := t.ciaB.icrLatch } }

/-- What every loading instruction with operand `o` and base count `n` does besides its own register and flags: PC moves past
it, the count is base plus page-cross cycle, S stays, no RAM byte changes, and everything outside the CPU is as the operand's
own bus reads left it, which is as before but for the effects of R49. -/
structure Sys2Proof.Forms.Reads (s : State) (o : Operand) (n : Nat) (t : State) : Prop where
  pc    : t.pc = s.pc + BitVec.ofNat 16 (operandLength o)
  count : t.stepCycles = n + (if (loadOperand o s).crossed then 1 else 0)
  sp    : t.sp = s.sp
  ram   : ∀ a : Word, ramByte t a = ramByte s a
  rest  : Forms.CpuOnly (loadOperand o s).st t
  frame : Forms.ReadsOnly s t

/-- The RAM bytes after a bus write of `v` to `ea`: the byte at `ea` is `v` unless `ea` is an IO address, every other byte is
as before. -/
structure Sys2Proof.Forms.StoresByte (s : State) (ea : Word) (v : Byte) (t : State) : Prop where
  stored : readSource s ea ≠ .io → ramByte t ea = v
  io     : readSource s ea = .io → ramByte t ea = ramByte s ea
  others : ∀ a : Word, a ≠ ea → ramByte t a = ramByte s a

/-- An implied instruction of `n` cycles that touches registers and flags only: PC moves by one and nothing outside the CPU
changes. -/
structure Sys2Proof.Forms.Implied (s : State) (n : Nat) (t : State) : Prop where
  pc    : t.pc = s.pc + 1
  count : t.stepCycles = n
  ram   : ∀ a : Word, ramByte t a = ramByte s a
  rest  : Forms.CpuOnly s t

/-- The forms of LDA (R79): instruction, operand, base cycles. -/
def Sys2Proof.Forms.lda (b : Byte) (w : Word) : List (Instr × Operand × Nat) :=
  [(.ldaImm b, .imm b, 2), (.ldaZp b, .mem (.zp b), 3), (.ldaZpX b, .mem (.zpX b), 4),
   (.ldaAbs w, .mem (.abs w), 4), (.ldaAbsX w, .mem (.absX w), 4), (.ldaAbsY w, .mem (.absY w), 4),
   (.ldaIndX b, .mem (.indX b), 6), (.ldaIndY b, .mem (.indY b), 5)]

/-- The forms of LDX (R80): instruction, operand, base cycles. -/
def Sys2Proof.Forms.ldx (b : Byte) (w : Word) : List (Instr × Operand × Nat) :=
  [(.ldxImm b, .imm b, 2), (.ldxZp b, .mem (.zp b), 3), (.ldxZpY b, .mem (.zpY b), 4),
   (.ldxAbs w, .mem (.abs w), 4), (.ldxAbsY w, .mem (.absY w), 4)]

/-- The forms of LDY (R81): instruction, operand, base cycles. -/
def Sys2Proof.Forms.ldy (b : Byte) (w : Word) : List (Instr × Operand × Nat) :=
  [(.ldyImm b, .imm b, 2), (.ldyZp b, .mem (.zp b), 3), (.ldyZpX b, .mem (.zpX b), 4),
   (.ldyAbs w, .mem (.abs w), 4), (.ldyAbsX w, .mem (.absX w), 4)]

/-- The forms of ADC (R96): instruction, operand, base cycles. -/
def Sys2Proof.Forms.adc (b : Byte) (w : Word) : List (Instr × Operand × Nat) :=
  [(.adcImm b, .imm b, 2), (.adcZp b, .mem (.zp b), 3), (.adcZpX b, .mem (.zpX b), 4),
   (.adcAbs w, .mem (.abs w), 4), (.adcAbsX w, .mem (.absX w), 4), (.adcAbsY w, .mem (.absY w), 4),
   (.adcIndX b, .mem (.indX b), 6), (.adcIndY b, .mem (.indY b), 5)]

/-- The forms of SBC (R98): instruction, operand, base cycles. -/
def Sys2Proof.Forms.sbc (b : Byte) (w : Word) : List (Instr × Operand × Nat) :=
  [(.sbcImm b, .imm b, 2), (.sbcZp b, .mem (.zp b), 3), (.sbcZpX b, .mem (.zpX b), 4),
   (.sbcAbs w, .mem (.abs w), 4), (.sbcAbsX w, .mem (.absX w), 4), (.sbcAbsY w, .mem (.absY w), 4),
   (.sbcIndX b, .mem (.indX b), 6), (.sbcIndY b, .mem (.indY b), 5)]

/-- The forms of CMP (R100): instruction, operand, base cycles. -/
def Sys2Proof.Forms.cmp (b : Byte) (w : Word) : List (Instr × Operand × Nat) :=
  [(.cmpImm b, .imm b, 2), (.cmpZp b, .mem (.zp b), 3), (.cmpZpX b, .mem (.zpX b), 4),
   (.cmpAbs w, .mem (.abs w), 4), (.cmpAbsX w, .mem (.absX w), 4), (.cmpAbsY w, .mem (.absY w), 4),
   (.cmpIndX b, .mem (.indX b), 6), (.cmpIndY b, .mem (.indY b), 5)]

/-- The forms of CPX (R101): instruction, operand, base cycles. -/
def Sys2Proof.Forms.cpx (b : Byte) (w : Word) : List (Instr × Operand × Nat) :=
  [(.cpxImm b, .imm b, 2), (.cpxZp b, .mem (.zp b), 3), (.cpxAbs w, .mem (.abs w), 4)]

/-- The forms of CPY (R102): instruction, operand, base cycles. -/
def Sys2Proof.Forms.cpy (b : Byte) (w : Word) : List (Instr × Operand × Nat) :=
  [(.cpyImm b, .imm b, 2), (.cpyZp b, .mem (.zp b), 3), (.cpyAbs w, .mem (.abs w), 4)]

/-- The forms of AND (R109): instruction, operand, base cycles. -/
def Sys2Proof.Forms.and (b : Byte) (w : Word) : List (Instr × Operand × Nat) :=
  [(.andImm b, .imm b, 2), (.andZp b, .mem (.zp b), 3), (.andZpX b, .mem (.zpX b), 4),
   (.andAbs w, .mem (.abs w), 4), (.andAbsX w, .mem (.absX w), 4), (.andAbsY w, .mem (.absY w), 4),
   (.andIndX b, .mem (.indX b), 6), (.andIndY b, .mem (.indY b), 5)]

/-- The forms of ORA (R110): instruction, operand, base cycles. -/
def Sys2Proof.Forms.ora (b : Byte) (w : Word) : List (Instr × Operand × Nat) :=
  [(.oraImm b, .imm b, 2), (.oraZp b, .mem (.zp b), 3), (.oraZpX b, .mem (.zpX b), 4),
   (.oraAbs w, .mem (.abs w), 4), (.oraAbsX w, .mem (.absX w), 4), (.oraAbsY w, .mem (.absY w), 4),
   (.oraIndX b, .mem (.indX b), 6), (.oraIndY b, .mem (.indY b), 5)]

/-- The forms of EOR (R111): instruction, operand, base cycles. -/
def Sys2Proof.Forms.eor (b : Byte) (w : Word) : List (Instr × Operand × Nat) :=
  [(.eorImm b, .imm b, 2), (.eorZp b, .mem (.zp b), 3), (.eorZpX b, .mem (.zpX b), 4),
   (.eorAbs w, .mem (.abs w), 4), (.eorAbsX w, .mem (.absX w), 4), (.eorAbsY w, .mem (.absY w), 4),
   (.eorIndX b, .mem (.indX b), 6), (.eorIndY b, .mem (.indY b), 5)]

/-- The forms of BIT (R112): instruction, operand, base cycles. -/
def Sys2Proof.Forms.bit (b : Byte) (w : Word) : List (Instr × Operand × Nat) :=
  [(.bitZp b, .mem (.zp b), 3), (.bitAbs w, .mem (.abs w), 4)]

/-- The forms of STA (R82): instruction, operand, base cycles. -/
def Sys2Proof.Forms.sta (b : Byte) (w : Word) : List (Instr × MemMode × Nat) :=
  [(.staZp b, .zp b, 3), (.staZpX b, .zpX b, 4), (.staAbs w, .abs w, 4),
   (.staAbsX w, .absX w, 5), (.staAbsY w, .absY w, 5), (.staIndX b, .indX b, 6),
   (.staIndY b, .indY b, 6)]

/-- The forms of STX (R83): instruction, operand, base cycles. -/
def Sys2Proof.Forms.stx (b : Byte) (w : Word) : List (Instr × MemMode × Nat) :=
  [(.stxZp b, .zp b, 3), (.stxZpY b, .zpY b, 4), (.stxAbs w, .abs w, 4)]

/-- The forms of STY (R84): instruction, operand, base cycles. -/
def Sys2Proof.Forms.sty (b : Byte) (w : Word) : List (Instr × MemMode × Nat) :=
  [(.styZp b, .zp b, 3), (.styZpX b, .zpX b, 4), (.styAbs w, .abs w, 4)]

/-- The forms of INC (R103): instruction, operand, base cycles. -/
def Sys2Proof.Forms.inc (b : Byte) (w : Word) : List (Instr × MemMode × Nat) :=
  [(.incZp b, .zp b, 5), (.incZpX b, .zpX b, 6), (.incAbs w, .abs w, 6),
   (.incAbsX w, .absX w, 7)]

/-- The forms of DEC (R104): instruction, operand, base cycles. -/
def Sys2Proof.Forms.dec (b : Byte) (w : Word) : List (Instr × MemMode × Nat) :=
  [(.decZp b, .zp b, 5), (.decZpX b, .zpX b, 6), (.decAbs w, .abs w, 6),
   (.decAbsX w, .absX w, 7)]

/-- The forms of ASL (R113): instruction, operand, base cycles. -/
def Sys2Proof.Forms.asl (b : Byte) (w : Word) : List (Instr × MemMode × Nat) :=
  [(.aslZp b, .zp b, 5), (.aslZpX b, .zpX b, 6), (.aslAbs w, .abs w, 6),
   (.aslAbsX w, .absX w, 7)]

/-- The forms of LSR (R114): instruction, operand, base cycles. -/
def Sys2Proof.Forms.lsr (b : Byte) (w : Word) : List (Instr × MemMode × Nat) :=
  [(.lsrZp b, .zp b, 5), (.lsrZpX b, .zpX b, 6), (.lsrAbs w, .abs w, 6),
   (.lsrAbsX w, .absX w, 7)]

/-- The forms of ROL (R115): instruction, operand, base cycles. -/
def Sys2Proof.Forms.rol (b : Byte) (w : Word) : List (Instr × MemMode × Nat) :=
  [(.rolZp b, .zp b, 5), (.rolZpX b, .zpX b, 6), (.rolAbs w, .abs w, 6),
   (.rolAbsX w, .absX w, 7)]

/-- The forms of ROR (R116): instruction, operand, base cycles. -/
def Sys2Proof.Forms.ror (b : Byte) (w : Word) : List (Instr × MemMode × Nat) :=
  [(.rorZp b, .zp b, 5), (.rorZpX b, .zpX b, 6), (.rorAbs w, .abs w, 6),
   (.rorAbsX w, .absX w, 7)]

/-- The 105 illegal opcodes, as R76 lists them. -/
def Sys2Proof.Forms.illegalOpcodes : List Byte :=
  [0x02, 0x03, 0x04, 0x07, 0x0B, 0x0C, 0x0F, 0x12, 0x13, 0x14, 0x17, 0x1A, 0x1B, 0x1C, 0x1F,
   0x22, 0x23, 0x27, 0x2B, 0x2F, 0x32, 0x33, 0x34, 0x37, 0x3A, 0x3B, 0x3C, 0x3F, 0x42, 0x43,
   0x44, 0x47, 0x4B, 0x4F, 0x52, 0x53, 0x54, 0x57, 0x5A, 0x5B, 0x5C, 0x5F, 0x62, 0x63, 0x64] ++
  [0x67, 0x6B, 0x6F, 0x72, 0x73, 0x74, 0x77, 0x7A, 0x7B, 0x7C, 0x7F, 0x80, 0x82, 0x83, 0x87,
   0x89, 0x8B, 0x8F, 0x92, 0x93, 0x97, 0x9B, 0x9C, 0x9E, 0x9F, 0xA3, 0xA7, 0xAB, 0xAF, 0xB2,
   0xB3, 0xB7, 0xBB, 0xBF, 0xC2, 0xC3, 0xC7, 0xCB, 0xCF, 0xD2, 0xD3, 0xD4, 0xD7, 0xDA, 0xDB] ++
  [0xDC, 0xDF, 0xE2, 0xE3, 0xE7, 0xEB, 0xEF, 0xF2, 0xF3, 0xF4, 0xF7, 0xFA, 0xFB, 0xFC, 0xFF]

/-! ### Encoding -/

/-- Decoding the encoding of any well-formed instruction gives it back. From 30_encoding.md sections 1, 2 and 4, R57, R60. -/
def Obligations.DecodeOfEncodedInstruction : Prop :=
  ∀ (i : Instr) (rest : List Byte), i.wellFormed = true → decode (encode i ++ rest) = some (i, rest)

/-- What decodes is the encoding of a well-formed instruction. From 30_encoding.md sections 1, 2 and 4, R57, R76. -/
def Obligations.EncodeOfDecodedBytes : Prop :=
  ∀ (bs rest : List Byte) (i : Instr), decode bs = some (i, rest) → i.wellFormed = true ∧ bs = encode i ++ rest

/-- Words written from the opcode map decode to the instruction they stand for. From 30_encoding.md sections 4 and 6, R75,
R78. -/
def Obligations.OpcodeWordsOfTheMap : Prop :=
  decode [0x18] = some (.clc, []) ∧ decode [0x0A] = some (.aslAcc, []) ∧ decode [0xA9, 0x05] = some (.ldaImm 0x05, []) ∧
  decode [0xA5, 0x10] = some (.ldaZp 0x10, []) ∧ decode [0xB5, 0x10] = some (.ldaZpX 0x10, []) ∧
  decode [0xB6, 0x10] = some (.ldxZpY 0x10, []) ∧ decode [0x8D, 0x20, 0xD0] = some (.staAbs 0xD020, []) ∧
  decode [0xBD, 0x00, 0xC0] = some (.ldaAbsX 0xC000, []) ∧ decode [0xB9, 0x00, 0xC0] = some (.ldaAbsY 0xC000, []) ∧
  decode [0x6C, 0x14, 0x03] = some (.jmpInd 0x0314, []) ∧ decode [0xA1, 0x20] = some (.ldaIndX 0x20, []) ∧
  decode [0xB1, 0x20] = some (.ldaIndY 0x20, []) ∧ decode [0xD0, 0xFB] = some (.bne (-5), []) ∧
  decode [0xBA] = some (.tsx, []) ∧ decode [0x69, 0x27] = some (.adcImm 0x27, []) ∧ decode [0x00] = some (.brk, [])

/-- Exactly the 105 listed opcodes are illegal, and fetching one is fatal and changes nothing else. Formalises R76. -/
def Obligations.IllegalOpcodesAreFatal : Prop :=
  (∀ op : Byte, lookupShape op = none ↔ op ∈ Forms.illegalOpcodes) ∧
  Forms.illegalOpcodes.length = 105 ∧
  ∀ s : State, s.fault = none → NoInterrupt s → (memRead s s.pc).1 ∈ Forms.illegalOpcodes →
    cpuStep s = .next { (memRead s s.pc).2 with
      fault := some { reason := .undefinedOpcode, opcode := (memRead s s.pc).1, address := s.pc }, stepCycles := 0 }

/-! ### The step, interrupts and faults -/

/-- A step that services no interrupt runs exec of the instruction the bytes at PC decode to (one step is one move of the
loop: model choice, log 8). From 60_exceptions.md section 1, 30_encoding.md section 1, 63_machine_loop.md sections 1
and 2, R183, R186, R187, R188. -/
def Obligations.StepRunsTheDecodedInstruction : Prop :=
  ∀ (s : State) (i : Instr) (rest : List Byte), Runnable s → NoInterrupt (atIteration s) →
    let u := atIteration s
    let b0 := memRead u u.pc
    let b1 := memRead b0.2 (u.pc + 1)
    let b2 := memRead b1.2 (u.pc + 2)
    decode [b0.1, b1.1, b2.1] = some (i, rest) →
    step s =
      onNext (exec i (if rest.length = 2 then b0.2 else if rest.length = 1 then b1.2 else b2.2))
        (fun t => closeFrame (afterStep t))

/-- A word placed by withFetchWord is the instruction the very next step runs (model convention, log 12). From
60_exceptions.md section 1, 70_reset_and_hazards.md section 1. -/
def Obligations.WithFetchWordRunsTheInstruction : Prop :=
  ∀ (s : State) (nbits w : Nat) (i : Instr), decodeTableWord nbits w = some i →
    step (s.withFetchWord nbits w) =
      onNext (exec i (atIteration (s.withFetchWord nbits w))) (fun t => closeFrame (afterStep t))

/-- Every instruction answers a next state and leaves the loop, the counters, the pending bits and the ROMs alone. From
60_exceptions.md section 5, R148, R25, R26, R27, R28, R30, R32, R33. -/
def Obligations.EveryInstructionCompletesInsideTheCpu : Prop :=
  ∀ (i : Instr) (s : State), ∃ t, exec i s = .next t ∧
    t = { s with
      a := t.a, x := t.x, y := t.y, sp := t.sp, pc := t.pc, p := t.p, stepCycles := t.stepCycles
      ram := t.ram, ddr := t.ddr, data := t.data, color := t.color, colorDraws := t.colorDraws
      vic := { t.vic with raster := s.vic.raster, acc := s.vic.acc, frameAvailable := s.vic.frameAvailable }
      ciaA := t.ciaA, ciaB := t.ciaB }

/-- Entry pushes PC and the status byte with B = 0, sets I and loads PC from the vector, in 7 cycles. Formalises R140. -/
def Obligations.InterruptEntrySequence : Prop :=
  ∀ (s : State) (vec : Word), vec = nmiVector ∨ vec = irqVector →
    let t := interruptEntry vec s
    let bit (b : Bool) (v : Nat) : Nat := if b then v else 0
    let vectorByte (a : Word) : Byte := if hiram s then kernalByte s a else ramByte s a
    ramByte t (stackAddr s.sp) = hiByte s.pc ∧ ramByte t (stackAddr (s.sp - 1)) = loByte s.pc ∧
    ramByte t (stackAddr (s.sp - 2)) = pImage false s.p ∧
    (pImage false s.p).toNat =
      bit s.p.n 128 + bit s.p.v 64 + 32 + bit s.p.d 8 + bit s.p.i 4 + bit s.p.z 2 + bit s.p.c 1 ∧
    (∀ a : Word, a ≠ stackAddr s.sp → a ≠ stackAddr (s.sp - 1) → a ≠ stackAddr (s.sp - 2) → ramByte t a = ramByte s a) ∧
    t.sp = s.sp - 3 ∧ t.p = { s.p with i := true } ∧
    t.pc = mkWord (memRead s vec).1 (memRead s (vec + 1)).1 ∧
    (memRead s vec).1 = vectorByte vec ∧ (memRead s (vec + 1)).1 = vectorByte (vec + 1) ∧ t.stepCycles = 7 ∧
    t.a = s.a ∧ t.x = s.x ∧ t.y = s.y ∧ Forms.RamAndCpuOnly s t

/-- The CPU step: no step after a fault, else NMI, else unmasked IRQ, else the instruction at PC. Formalises R138. -/
def Obligations.StepPriority : Prop :=
  ∀ s : State,
    (s.fault.isSome = true → cpuStep s = .fault .halted) ∧
    (s.fault = none → s.nmiPending = true →
      cpuStep s = .next (interruptEntry 0xFFFA { s with nmiPending := false }) ∧
      (interruptEntry 0xFFFA { s with nmiPending := false }).stepCycles = 7) ∧
    (s.fault = none → s.nmiPending = false → s.irqPending = true → s.p.i = false →
      cpuStep s = .next (interruptEntry 0xFFFE { s with irqPending := false }) ∧
      (interruptEntry 0xFFFE { s with irqPending := false }).stepCycles = 7) ∧
    (s.fault = none → NoInterrupt s →
      (lookupShape (memRead s s.pc).1 = none →
        cpuStep s = .next (raiseFatal (memRead s s.pc).1 (memRead s s.pc).2)) ∧
      (∀ i, lookupShape (memRead s s.pc).1 = some (.f1 i) → cpuStep s = exec i (memRead s s.pc).2) ∧
      (∀ k, lookupShape (memRead s s.pc).1 = some (.f2 k) →
        cpuStep s = exec (k (memRead (memRead s s.pc).2 (s.pc + 1)).1) (memRead (memRead s s.pc).2 (s.pc + 1)).2) ∧
      (∀ k, lookupShape (memRead s s.pc).1 = some (.f3 k) →
        let b1 := memRead (memRead s s.pc).2 (s.pc + 1)
        let b2 := memRead b1.2 (s.pc + 2)
        cpuStep s = exec (k (mkWord b1.1 b2.1)) b2.2))

/-- RTI with the stack as entry or BRK left it, and RTS with the stack as JSR left it, resume where they should. From
60_exceptions.md sections 2 and 4, 45_control.md section 1, R118, R119, R140, R146. -/
def Obligations.ReturnsUndoTheirCalls : Prop :=
  (∀ (s u : State) (vec : Word), vec = nmiVector ∨ vec = irqVector →
      u.sp = (interruptEntry vec s).sp →
      (∀ k : Byte, k = s.sp ∨ k = s.sp - 1 ∨ k = s.sp - 2 →
        ramByte u (stackAddr k) = ramByte (interruptEntry vec s) (stackAddr k)) →
      ∃ t, exec .rti u = .next t ∧ t.pc = s.pc ∧ t.p = s.p ∧ t.sp = s.sp) ∧
  (∀ s u b : State, exec .brk s = .next b → u.sp = b.sp →
      (∀ k : Byte, k = s.sp ∨ k = s.sp - 1 ∨ k = s.sp - 2 → ramByte u (stackAddr k) = ramByte b (stackAddr k)) →
      ∃ t, exec .rti u = .next t ∧ t.pc = s.pc + 2 ∧ t.p = s.p ∧ t.sp = s.sp) ∧
  (∀ (s u j : State) (w : Word), exec (.jsrAbs w) s = .next j → u.sp = j.sp →
      (∀ k : Byte, k = s.sp ∨ k = s.sp - 1 → ramByte u (stackAddr k) = ramByte j (stackAddr k)) →
      ∃ t, exec .rts u = .next t ∧ t.pc = s.pc + 3 ∧ t.sp = s.sp)

/-- A recorded fault is never cleared and no step follows it; recording one halts the loop. Formalises R27. -/
def Obligations.FatalFaultHaltsTheLoop : Prop :=
  (∀ s : State, s.fault.isSome = true → cpuStep s = .fault .halted ∧ step s = .fault .halted) ∧
  (∀ s t : State, step s = .next t → t.fault.isSome = true → t.halted = true ∧ step t = .fault .halted)

/-- After every iteration irq_pending is the IRQ line and nmi_pending is raised by a rising CIA-B line. Formalises R184,
R185. -/
def Obligations.IterationTicksThenSamples : Prop :=
  ∀ s u : State, cpuStep s = .next u → u.fault = none →
    ∃ t, iterate s = .next t ∧
      t.cycles = u.cycles + u.stepCycles ∧ t.frameCycles = u.frameCycles + u.stepCycles ∧
      t.vic = vicTick u.stepCycles u.vic ∧ t.ciaA = ciaTick u.stepCycles u.ciaA ∧ t.ciaB = ciaTick u.stepCycles u.ciaB ∧
      t.irqPending = (vicIrqLine t.vic || ciaLine t.ciaA) ∧
      (t.nmiPending = true ↔ u.nmiPending = true ∨ (ciaLine t.ciaB = true ∧ u.nmiLinePrev = false)) ∧
      t.nmiLinePrev = ciaLine t.ciaB ∧
      t = { u with
        cycles := t.cycles, frameCycles := t.frameCycles, vic := t.vic, ciaA := t.ciaA, ciaB := t.ciaB
        irqPending := t.irqPending, nmiPending := t.nmiPending, nmiLinePrev := t.nmiLinePrev }

/-- No instruction and no held line raises NMI: only a rising edge of CIA-B does. From 63_machine_loop.md section 1, R185,
R25. -/
def Obligations.NmiPendingNeedsAnEdge : Prop :=
  ∀ s t : State, iterate s = .next t → t.fault = none → s.nmiPending = false → t.nmiPending = true →
    s.nmiLinePrev = false ∧ ciaLine t.ciaB = true

/-! ### The loop, the frame and the host -/

/-- Shutdown ends the loop before the next iteration; a paused frame runs no instruction and ticks no chip. From
63_machine_loop.md section 2, R187, R188. -/
def Obligations.ShutdownAndPauseRunNoInstruction : Prop :=
  ∀ s : State, s.halted = false → s.fault = none →
    (s.shutdown = true → (s.frameOpen = true ∨ s.paused = false) → step s = .fault .shutdownExit) ∧
    (s.frameOpen = false → s.paused = true →
      ∃ t, step s = .next t ∧ t = { s with keys := t.keys, nmiPending := t.nmiPending, events := [] } ∧
        (t.nmiPending = true ↔ s.nmiPending = true ∨ (⟨.restore, true⟩ : KeyEvent) ∈ s.events) ∧
        (t.nmiPending = true → cpuStep (setPaused false t) =
          .next (interruptEntry nmiVector { t with paused := false, nmiPending := false })) ∧
        frame s.events { s with events := [] } = .emitted (snapshot t) t)

/-- A matrix event sets exactly its key; RESTORE down sets nmi_pending; RESTORE up does nothing. From 63_machine_loop.md
section 3, R190, R191. -/
def Obligations.KeyEventsChangeOneKey : Prop :=
  ∀ (s : State) (c r : Fin 8) (down : Bool),
    (∀ c' r' : Fin 8, (applyEvent s ⟨.matrix c r, down⟩).keys[c'].getLsbD r'.val =
      if c' = c ∧ r' = r then down else s.keys[c'].getLsbD r'.val) ∧
    applyEvent s ⟨.matrix c r, down⟩ = { s with keys := (applyEvent s ⟨.matrix c r, down⟩).keys } ∧
    applyEvent s ⟨.restore, true⟩ = { s with nmiPending := true } ∧ applyEvent s ⟨.restore, false⟩ = s

/-- A call of Frame is a run of machine steps, with the same end state and snapshot (what one step is: model choice, log
8). From 63_machine_loop.md section 2, R186, R187, R188, R189. -/
def Obligations.FrameIsARunOfSteps : Prop :=
  ∀ s : State, s.frameOpen = false → s.halted = false → s.fault = none →
    match frame s.events { s with events := [] } with
    | .emitted snap t => snap = snapshot t ∧ t.frameOpen = false ∧ ∃ k, Host.Core.run Sys2Proof.core (k + 1) s = .next t
    | .exit3 snap t =>
      snap = snapshot t ∧ t.halted = true ∧ t.fault.isSome = true ∧ ∃ k, Host.Core.run Sys2Proof.core (k + 1) s = .next t
    | .exit0 _ => ∃ k, Host.Core.run Sys2Proof.core (k + 1) s = .fault Fault.shutdownExit
    | .alreadyHalted _ => False
    | .stopped _ => False
    | .refused _ => False

/-- Every frame that opens ends, or the machine halts, within 10,000 iterations. From 63_machine_loop.md section 2,
70_reset_and_hazards.md section 4, R186, R207. -/
def Obligations.FrameEndsWithinTheBudget : Prop :=
  ∀ s : State, Runnable s → s.frameOpen = false →
    ∃ k t, 1 ≤ k ∧ k ≤ 10000 ∧ Host.Core.run Sys2Proof.core k s = .next t ∧ (t.frameOpen = false ∨ t.halted = true)

/-- Every instruction and every interrupt service costs 2 to 7 cycles. From 70_reset_and_hazards.md section 4, R207, R210. -/
def Obligations.CycleCountBounds : Prop :=
  (∀ (i : Instr) (s t : State), exec i s = .next t → 2 ≤ t.stepCycles ∧ t.stepCycles ≤ 7) ∧
  (∀ s t : State, cpuStep s = .next t → t.fault = none → 2 ≤ t.stepCycles ∧ t.stepCycles ≤ 7) ∧
  (∀ (s : State) (vec : Word), (interruptEntry vec s).stepCycles = 7) ∧
  (∀ s : State, ∃ t, exec .brk s = .next t ∧ t.stepCycles = 7) ∧
  (∀ (s : State) (w : Word), ∃ t, exec (.incAbsX w) s = .next t ∧ t.stepCycles = 7)

/-- Every step from a legal state leads to a legal state. From 10_state.md sections 5 to 7, R30, R31, R160, R181, R189. -/
def Obligations.LegalStatesStayLegal : Prop :=
  ∀ s t : State, Legal s = true → step s = .next t → Legal t = true

/-- State.reset is legal, and is what start-up gives for the test ROM images and the model's draws (logs 1 to 4). From
10_state.md section 7, 70_reset_and_hazards.md section 1, 95_test_vectors.md section 1, R34. -/
def Obligations.ResetIsLegalAndTheStartupState : Prop :=
  Legal State.reset = true ∧ startup testPowerOn = .running State.reset

/-- No step changes a ROM image. From 10_state.md section 5, 20_memory.md section 4, R28. -/
def Obligations.RomImagesNeverChange : Prop :=
  ∀ s t : State, step s = .next t → t.romBasic = s.romBasic ∧ t.romKernal = s.romKernal ∧ t.romChar = s.romChar

/-- Inside a frame no step changes the keyboard, and no step ever changes the pause or shutdown flag. From 10_state.md
section 6, 63_machine_loop.md section 5, R32, R194. -/
def Obligations.OnlyTheHostMovesHostState : Prop :=
  ∀ s t : State, step s = .next t →
    t.paused = s.paused ∧ t.shutdown = s.shutdown ∧ (s.frameOpen = true → t.keys = s.keys ∧ t.events = s.events)

/-- V, C, D and I change only under the instructions R24 names, and N, Z under none of the others. From 10_state.md
section 3, R24. -/
def Obligations.FlagsAreWrittenOnlyByTheirInstructions : Prop :=
  ∀ (i : Instr) (s t : State), exec i s = .next t →
    (i.mnemonic ∉ [.ADC, .SBC, .BIT, .CLV, .PLP, .RTI] → t.p.v = s.p.v) ∧
    (i.mnemonic ∉ [.ADC, .SBC, .CMP, .CPX, .CPY, .ASL, .LSR, .ROL, .ROR, .CLC, .SEC, .PLP, .RTI] → t.p.c = s.p.c) ∧
    (i.mnemonic ∉ [.CLD, .SED, .PLP, .RTI] → t.p.d = s.p.d) ∧
    (i.mnemonic ∉ [.CLI, .SEI, .PLP, .RTI, .BRK] → t.p.i = s.p.i) ∧
    (i.mnemonic ∈ [.STA, .STX, .STY, .TXS, .PHA, .PHP, .JMP, .JSR, .RTS, .BRK, .BPL, .BMI, .BVC, .BVS, .BCC, .BCS, .BNE,
        .BEQ, .CLC, .SEC, .CLD, .SED, .CLI, .SEI, .CLV, .NOP] → t.p.n = s.p.n ∧ t.p.z = s.p.z)

/-- A, X, Y and S change only under the instructions R17 and R18 name. From 10_state.md section 2, R17, R18. -/
def Obligations.RegistersAreWrittenOnlyByTheirInstructions : Prop :=
  ∀ (i : Instr) (s t : State), exec i s = .next t →
    (i.mnemonic ∉ [.LDA, .TXA, .TYA, .ADC, .SBC, .AND, .ORA, .EOR, .PLA] → i.mode ≠ .accumulator → t.a = s.a) ∧
    (i.mnemonic ∉ [.LDX, .TAX, .TSX, .INX, .DEX] → t.x = s.x) ∧
    (i.mnemonic ∉ [.LDY, .TAY, .INY, .DEY] → t.y = s.y) ∧
    (i.mnemonic ∉ [.TXS, .PHA, .PHP, .PLA, .PLP, .JSR, .RTS, .RTI, .BRK] → t.sp = s.sp)

/-! ### Memory, banks and IO -/

/-- A bus read changes nothing but an ICR latch, at the ICR addresses only, and the draw counter at color RAM. From
20_memory.md section 6, R49, R52. -/
def Obligations.ReadsHaveOnlyTheIcrSideEffect : Prop :=
  ∀ (s : State) (a : Word),
    let t := (memRead s a).2
    (readSource s a ≠ .io → t = s) ∧
    (readSource s a = .io → a.toNat / 256 = 0xDC → a.toNat % 16 = 13 → t = { s with ciaA := { s.ciaA with icrLatch := 0 } }) ∧
    (readSource s a = .io → a.toNat / 256 = 0xDD → a.toNat % 16 = 13 → t = { s with ciaB := { s.ciaB with icrLatch := 0 } }) ∧
    (readSource s a = .io → 0xD8 ≤ a.toNat / 256 → a.toNat / 256 ≤ 0xDB → t = { s with colorDraws := s.colorDraws + 1 }) ∧
    (readSource s a = .io → ¬(a.toNat / 256 = 0xDC ∧ a.toNat % 16 = 13) → ¬(a.toNat / 256 = 0xDD ∧ a.toNat % 16 = 13) →
      ¬(0xD8 ≤ a.toNat / 256 ∧ a.toNat / 256 ≤ 0xDB) → t = s)

/-- The port reads DDR and the driven-or-high data bits; a write sets the register and the RAM copy. Formalises R37, R38. -/
def Obligations.ProcessorPortReadsAndWrites : Prop :=
  ∀ (s : State) (v : Byte),
    memRead s 0x0000 = (s.ddr, s) ∧ (memRead s 0x0001).2 = s ∧
    (∀ k : Nat, k < 8 → (memRead s 0x0001).1.getLsbD k = if s.ddr.getLsbD k then s.data.getLsbD k else true) ∧
    (let t := memWrite s 0x0000 v
     t = { s with ddr := v, ram := t.ram } ∧ ramByte t 0x0000 = v ∧ ∀ a : Word, a ≠ 0x0000 → ramByte t a = ramByte s a) ∧
    (let t := memWrite s 0x0001 v
     t = { s with data := v, ram := t.ram } ∧ ramByte t 0x0001 = v ∧ ∀ a : Word, a ≠ 0x0001 → ramByte t a = ramByte s a)

/-- The configuration is the low three bits of $0001 as read, and selects the row of the bank table. Formalises R39, R40. -/
def Obligations.BankTable : Prop :=
  ∀ (s : State) (a : Word),
    let n := a.toNat
    let c := (bankCfg s).toNat
    (∀ k : Nat, k < 3 → (bankCfg s).getLsbD k = (s.data.getLsbD k || !s.ddr.getLsbD k)) ∧
    c = (memRead s 0x0001).1.toNat % 8 ∧
    (loram s = true ↔ c % 2 = 1) ∧ (hiram s = true ↔ c / 2 % 2 = 1) ∧ (charen s = true ↔ c / 4 = 1) ∧
    (n < 2 → readSource s a = .port) ∧
    (0xA000 ≤ n → n ≤ 0xBFFF → readSource s a = if c = 7 ∨ c = 3 then .basic else .ram) ∧
    (0xD000 ≤ n → n ≤ 0xDFFF →
      readSource s a = if c = 7 ∨ c = 6 ∨ c = 5 then .io else if c = 3 ∨ c = 2 ∨ c = 1 then .charRom else .ram) ∧
    (0xE000 ≤ n → readSource s a = if c = 7 ∨ c = 6 ∨ c = 3 ∨ c = 2 then .kernal else .ram) ∧
    (2 ≤ n → n ≤ 0x9FFF → readSource s a = .ram) ∧ (0xC000 ≤ n → n ≤ 0xCFFF → readSource s a = .ram)

/-- A byte written where RAM is mapped reads back; under a ROM it reads back once RAM is mapped there. From 20_memory.md
section 4, R43. -/
def Obligations.RamRoundTrip : Prop :=
  ∀ (s : State) (a : Word) (b : Byte),
    (readSource s a = .ram → memRead (memWrite s a b) a = (b, memWrite s a b)) ∧
    (readSource s a = .basic ∨ readSource s a = .kernal ∨ readSource s a = .charRom →
      (memRead (memWrite s a b) a).1 = (memRead s a).1 ∧
      ∀ d r : Byte, readSource { memWrite s a b with ddr := d, data := r } a = .ram →
        (memRead { memWrite s a b with ddr := d, data := r } a).1 = b)

/-- A write lands in RAM under every ROM, in the chips when IO is mapped, and touches nothing else. Formalises R42. -/
def Obligations.WriteRouting : Prop :=
  ∀ (s : State) (a : Word) (v : Byte),
    let t := memWrite s a v
    (readSource s a ≠ .port → readSource s a ≠ .io →
      t = { s with ram := t.ram } ∧ ramByte t a = v ∧ ∀ a' : Word, a' ≠ a → ramByte t a' = ramByte s a') ∧
    (readSource s a = .io → t = { s with vic := t.vic, color := t.color, ciaA := t.ciaA, ciaB := t.ciaB } ∧ t = ioWrite s a v) ∧
    (readSource s a = .port → t = { s with ram := t.ram, ddr := t.ddr, data := t.data } ∧
      t.ddr = (if a = 0 then v else s.ddr) ∧ t.data = (if a = 0 then s.data else v) ∧ ramByte t a = v)

/-- IO reads and writes reach the device of their page; unmapped pages read $FF and discard writes. Formalises R44, R45. -/
def Obligations.IoDispatchByPage : Prop :=
  ∀ (s : State) (a : Word) (v : Byte), readSource s a = .io →
    let pg := a.toNat / 256
    let r := memRead s a
    let t := memWrite s a v
    (0xD0 ≤ pg → pg ≤ 0xD3 → r = (vicRead s.vic (BitVec.ofNat 6 a.toNat), s) ∧
      t = { s with vic := vicWrite s.vic (BitVec.ofNat 6 a.toNat) v }) ∧
    (0xD8 ≤ pg → pg ≤ 0xDB → r.1.toNat % 16 = (colorCell s (a.toNat % 1024)).toNat ∧
      t = { s with color := t.color } ∧ colorCell t (a.toNat % 1024) = v.setWidth 4 ∧
      ∀ k : Nat, k ≠ a.toNat % 1024 → colorCell t k = colorCell s k) ∧
    (pg = 0xDC → let x := ciaRead (keyboardPort s.ciaA s.keys) s.ciaA (BitVec.ofNat 4 a.toNat)
      r = (x.1, { s with ciaA := x.2 }) ∧ t = { s with ciaA := ciaWrite s.ciaA (BitVec.ofNat 4 a.toNat) v }) ∧
    (pg = 0xDD → let x := ciaRead (ciaPortB s.ciaB) s.ciaB (BitVec.ofNat 4 a.toNat)
      r = (x.1, { s with ciaB := x.2 }) ∧ t = { s with ciaB := ciaWrite s.ciaB (BitVec.ofNat 4 a.toNat) v }) ∧
    ((0xD4 ≤ pg ∧ pg ≤ 0xD7) ∨ 0xDE ≤ pg → r = (0xFF, s) ∧ t = s)

/-- Two canonical memories that read alike are the same list (model convention, log 1). From 10_state.md section 5, R28. -/
def Obligations.EqualMemoriesAreEqualData : Prop :=
  ∀ (w size : Nat) (fill : BitVec w) (m m' : Memory w), Memory.wf size fill m = true → Memory.wf size fill m' = true →
    (∀ a, Memory.read fill m a = Memory.read fill m' a) → m = m'

/-! ### VIC-II and CIAs -/

/-- VicTick(n) is the loop of R162: one line per 63 accumulated cycles, wrap at 312, compare on every new line. Formalises
R162. -/
def Obligations.VicTickIsTheLineLoop : Prop :=
  ∀ (v : Vic) (n : Nat),
    (vicCompare v).toNat = 256 * (v.vreg[0x11].toNat / 128) + v.vreg[0x12].toNat ∧
    (v.acc + n < 63 → vicTick n v = { v with acc := v.acc + n }) ∧
    (63 ≤ v.acc + n →
      vicTick n v =
        vicTick 0 { v with
          acc := v.acc + n - 63
          raster := if v.raster = 311 then 0 else v.raster + 1
          frameAvailable := if v.raster = 311 then true else v.frameAvailable
          latch := if (if v.raster = 311 then 0 else v.raster + 1) = vicCompare v then v.latch ||| 1 else v.latch })

/-- Ticks add up, and 19,656 cycles bring the raster back to the same line with a frame available. From 61_vic_ii.md
section 2, R161, R162. -/
def Obligations.VicFrameIs19656Cycles : Prop :=
  (∀ (v : Vic) (m n : Nat), vicTick n (vicTick m v) = vicTick (m + n) v) ∧
  ∀ v : Vic, v.raster.toNat < 312 → v.acc < 63 →
    let compare : Nat := 256 * (v.vreg[0x11].toNat / 128) + v.vreg[0x12].toNat
    (vicTick 19656 v).raster = v.raster ∧ (vicTick 19656 v).acc = v.acc ∧ (vicTick 19656 v).frameAvailable = true ∧
    (vicCompare v).toNat = compare ∧ (compare < 312 → (vicTick 19656 v).latch.getLsbD 0 = true) ∧
    (312 ≤ compare → ∀ n : Nat, (vicTick n v).latch = v.latch) ∧ (vicTick 19656 v).vreg = v.vreg

/-- VIC-II registers read back as written but for $D011, $D012, $D019 and the unused indices. From 61_vic_ii.md section 1,
R155, R156, R157, R158, R159, R163. -/
def Obligations.VicRegisterFile : Prop :=
  ∀ (v : Vic) (i : BitVec 6) (b : Byte),
    let t := vicWrite v i b
    (i.toNat ≤ 0x2E → i ≠ 0x11 → i ≠ 0x12 → i ≠ 0x19 → vicRead t i = b) ∧
    (i.toNat ≤ 0x2E → i ≠ 0x19 → ∀ k : Nat, (h : k < 47) → t.vreg[k] = if k = i.toNat then b else v.vreg[k]) ∧
    (i ≠ 0x19 → t.latch = v.latch) ∧ (vicWrite v 0x19 b).vreg = v.vreg ∧
    (∀ k : BitVec 6, k ≠ i → ¬(i = 0x1A ∧ k = 0x19) → vicRead t k = vicRead v k) ∧
    (vicRead (vicWrite v 0x1A b) 0x19).toNat % 128 = (vicRead v 0x19).toNat % 128 ∧
    (0x2E < i.toNat → t = v ∧ vicRead v i = 0xFF) ∧
    (∀ k : Nat, k < 4 → (vicWrite v 0x19 b).latch.getLsbD k = (v.latch.getLsbD k && !b.getLsbD k)) ∧
    (vicRead v 0x11).toNat = v.vreg[0x11].toNat % 128 + 128 * (v.raster.toNat / 256) ∧
    (vicRead v 0x12).toNat = v.raster.toNat % 256 ∧
    (vicRead v 0x19).toNat = v.latch.toNat + (if vicIrqLine v then 128 else 0) ∧
    (vicIrqLine v = true ↔ ∃ k : Nat, k < 4 ∧ v.latch.getLsbD k = true ∧ v.vreg[0x1A].getLsbD k = true) ∧
    t.raster = v.raster ∧ t.acc = v.acc ∧ t.frameAvailable = v.frameAvailable

/-- Bit r of $DC01 is 0 exactly when a key of row r is down in a strobed column. Formalises R173. -/
def Obligations.KeyboardRowsReadLow : Prop :=
  ∀ (c : Cia) (keys : Vector Byte 8) (r : Fin 8),
    (keyboardPort c keys).getLsbD r.val = false ↔
      ∃ k : Fin 8, c.pra.getLsbD k.val = false ∧ c.ddra.getLsbD k.val = true ∧ keys[k].getLsbD r.val = true

/-- CiaTick(n): a counting timer counts down by n, or underflows when n exceeds it: reload, ICR bit, one-shot stop.
Formalises R177. -/
def Obligations.TimersUnderflowPastZero : Prop :=
  ∀ (n : Nat) (c : Cia),
    let t := ciaTick n c
    let countsTA : Prop := c.cra.getLsbD 0 = true ∧ c.cra.getLsbD 5 = false
    let countsTB : Prop := c.crb.getLsbD 0 = true ∧ c.crb.getLsbD 5 = false ∧ c.crb.getLsbD 6 = false
    t = { c with taCnt := t.taCnt, tbCnt := t.tbCnt, cra := t.cra, crb := t.crb, icrLatch := t.icrLatch } ∧
    (¬countsTA → t.taCnt = c.taCnt ∧ t.cra = c.cra ∧ t.icrLatch.getLsbD 0 = c.icrLatch.getLsbD 0) ∧
    (countsTA → n ≤ c.taCnt.toNat →
      t.taCnt.toNat = c.taCnt.toNat - n ∧ t.cra = c.cra ∧ t.icrLatch.getLsbD 0 = c.icrLatch.getLsbD 0) ∧
    (countsTA → c.taCnt.toNat < n → t.taCnt = c.taLatch ∧ t.icrLatch.getLsbD 0 = true ∧
      (∀ k : Nat, k < 8 → t.cra.getLsbD k = (c.cra.getLsbD k && !(decide (k = 0) && c.cra.getLsbD 3)))) ∧
    (¬countsTB → t.tbCnt = c.tbCnt ∧ t.crb = c.crb ∧ t.icrLatch.getLsbD 1 = c.icrLatch.getLsbD 1) ∧
    (countsTB → n ≤ c.tbCnt.toNat →
      t.tbCnt.toNat = c.tbCnt.toNat - n ∧ t.crb = c.crb ∧ t.icrLatch.getLsbD 1 = c.icrLatch.getLsbD 1) ∧
    (countsTB → c.tbCnt.toNat < n → t.tbCnt = c.tbLatch ∧ t.icrLatch.getLsbD 1 = true ∧
      (∀ k : Nat, k < 8 → t.crb.getLsbD k = (c.crb.getLsbD k && !(decide (k = 0) && c.crb.getLsbD 3)))) ∧
    (∀ k : Nat, 2 ≤ k → t.icrLatch.getLsbD k = c.icrLatch.getLsbD k)

/-- A running continuous timer A with latch L, ticked one cycle at a time, underflows every L + 1 cycles. From 62_cia.md
section 3, R177. -/
def Obligations.TimerPeriodIsLatchPlusOne : Prop :=
  ∀ c : Cia, countsA c = true → c.cra.getLsbD 3 = false → countsB c = false → c.taCnt = c.taLatch →
    (∀ k : Nat, k ≤ c.taLatch.toNat →
      (ciaTick 1)^[k] c = { c with taCnt := BitVec.ofNat 16 (c.taLatch.toNat - k) }) ∧
    (ciaTick 1)^[c.taLatch.toNat + 1] c = { c with icrLatch := c.icrLatch ||| 1 }

/-- Reading ICR returns and clears the latch with bit 7 = line; writing it sets or clears mask bits. Formalises R178,
R179, R180. -/
def Obligations.InterruptControlRegister : Prop :=
  ∀ (p : Byte) (c : Cia) (v : Byte),
    let r := ciaRead p c 13
    let t := ciaWrite c 13 v
    (ciaLine c = true ↔ ∃ k : Nat, k < 5 ∧ c.icrLatch.getLsbD k = true ∧ c.icrMask.getLsbD k = true) ∧
    r.1.toNat = c.icrLatch.toNat + (if ciaLine c then 128 else 0) ∧ r.2 = { c with icrLatch := 0 } ∧ ciaLine r.2 = false ∧
    (ciaRead p r.2 13).1 = 0 ∧
    t = { c with icrMask := t.icrMask } ∧
    (∀ k : Nat, k < 5 →
      t.icrMask.getLsbD k = if v.getLsbD k then v.getLsbD 7 else c.icrMask.getLsbD k)

/-- High-byte writes load a stopped timer; control writes store all but bit 4, which forces a load. Formalises R175, R176. -/
def Obligations.TimerRegisterWrites : Prop :=
  ∀ (p : Byte) (c : Cia) (v : Byte),
    (let t := ciaWrite c 5 v
     t.taLatch.toNat = v.toNat * 256 + c.taLatch.toNat % 256 ∧ t.taCnt = (if c.cra.getLsbD 0 then c.taCnt else t.taLatch) ∧
     t = { c with taLatch := t.taLatch, taCnt := t.taCnt }) ∧
    (let t := ciaWrite c 7 v
     t.tbLatch.toNat = v.toNat * 256 + c.tbLatch.toNat % 256 ∧ t.tbCnt = (if c.crb.getLsbD 0 then c.tbCnt else t.tbLatch) ∧
     t = { c with tbLatch := t.tbLatch, tbCnt := t.tbCnt }) ∧
    (let t := ciaWrite c 14 v
     (∀ k : Nat, k < 8 → t.cra.getLsbD k = (v.getLsbD k && !decide (k = 4))) ∧ (ciaRead p t 14).1 = t.cra ∧
     t.taCnt = (if v.getLsbD 4 then c.taLatch else c.taCnt) ∧ t = { c with cra := t.cra, taCnt := t.taCnt }) ∧
    (let t := ciaWrite c 15 v
     (∀ k : Nat, k < 8 → t.crb.getLsbD k = (v.getLsbD k && !decide (k = 4))) ∧ (ciaRead p t 15).1 = t.crb ∧
     t.tbCnt = (if v.getLsbD 4 then c.tbLatch else c.tbCnt) ∧ t = { c with crb := t.crb, tbCnt := t.tbCnt }) ∧
    (∀ n : Nat, n ≤ 0xFFFF → c.cra.getLsbD 0 = true → c.cra.getLsbD 5 = true → (ciaTick n c).taCnt = c.taCnt) ∧
    (∀ n : Nat, n ≤ 0xFFFF → c.crb.getLsbD 0 = true → c.crb.getLsbD 5 = true ∨ c.crb.getLsbD 6 = true →
      (ciaTick n c).tbCnt = c.tbCnt)

/-- A snapshot is 25 rows of 40 cells from RAM and color RAM, and depends on nothing else but the named registers. From
61_vic_ii.md section 3, R164, R165. -/
def Obligations.SnapshotReadsRamAndColor : Prop :=
  (∀ s : State,
      let line (k : Nat) : Nat := if s.ciaB.ddra.getLsbD k = true ∧ s.ciaB.pra.getLsbD k = false then 0 else 1
      let pa := line 0 + 2 * line 1
      videoBase s = (3 - pa) * 16384 + s.vic.vreg[0x18].toNat / 16 * 1024 ∧
      charBase s = (3 - pa) * 16384 + s.vic.vreg[0x18].toNat / 2 % 8 * 2048) ∧
  (∀ (s : State) (r c : Nat), r < 25 → c < 40 →
      (snapshot s).cells.length = 25 ∧ ((snapshot s).cells[r]?).map List.length = some 40 ∧
      (((snapshot s).cells[r]?).bind (fun row => row[c]?)) =
        some { screenCode := Memory.read Config.ramFill s.ram ((videoBase s + r * 40 + c) % 65536)
               color := Memory.read Config.colorFill s.color (r * 40 + c) } ∧
      (snapshot s).border.toNat = s.vic.vreg[0x20].toNat % 16 ∧
      (snapshot s).background.toNat = s.vic.vreg[0x21].toNat % 16 ∧ (snapshot s).cursorPos = none) ∧
  ∀ s t : State, s.ram = t.ram → s.color = t.color → s.vic.vreg[0x18] = t.vic.vreg[0x18] →
    s.vic.vreg[0x20] = t.vic.vreg[0x20] → s.vic.vreg[0x21] = t.vic.vreg[0x21] → s.ciaB.pra = t.ciaB.pra →
    s.ciaB.ddra = t.ciaB.ddra → snapshot s = snapshot t

/-! ### Addressing modes and instructions -/

/-- The effective address and page-cross flag of every memory mode, in numbers, and what Load gives. Formalises R63, R64,
R65, R66, R67, R68, R69, R71, R72. -/
def Obligations.AddressingModes : Prop :=
  ∀ (s : State) (b : Byte) (w : Word),
    let ptr (z : Nat) : Nat :=
      (memRead s (BitVec.ofNat 16 (z % 256))).1.toNat + 256 * (memRead s (BitVec.ofNat 16 ((z + 1) % 256))).1.toNat
    let is (m : MemMode) (addr : Nat) (crossed : Bool) : Prop :=
      (effectiveAddress m s).addr.toNat = addr ∧ (effectiveAddress m s).crossed = crossed ∧ (effectiveAddress m s).st = s
    let cross (base i : Nat) : Bool := decide (base / 256 ≠ (base + i) % 65536 / 256)
    is (.zp b) b.toNat false ∧ is (.zpX b) ((b.toNat + s.x.toNat) % 256) false ∧
    is (.zpY b) ((b.toNat + s.y.toNat) % 256) false ∧ is (.abs w) w.toNat false ∧
    is (.absX w) ((w.toNat + s.x.toNat) % 65536) (cross w.toNat s.x.toNat) ∧
    is (.absY w) ((w.toNat + s.y.toNat) % 65536) (cross w.toNat s.y.toNat) ∧
    is (.indX b) (ptr (b.toNat + s.x.toNat)) false ∧
    is (.indY b) ((ptr b.toNat + s.y.toNat) % 65536) (cross (ptr b.toNat) s.y.toNat) ∧
    loadOperand (.imm b) s = { val := b, crossed := false, st := s } ∧
    ∀ m : MemMode, loadOperand (.mem m) s =
      { val := (memRead s (effectiveAddress m s).addr).1, crossed := (effectiveAddress m s).crossed
        st := (memRead s (effectiveAddress m s).addr).2 }

/-- LDA, LDX and LDY complete in every mode with the operand in the register and N, Z from it. Formalises R79, R80, R81. -/
def Obligations.LoadsSetRegisterAndNZ : Prop :=
  ∀ (s : State) (b : Byte) (w : Word),
    (∀ f ∈ Forms.lda b w, ∃ t, exec f.1 s = .next t ∧ Forms.Reads s f.2.1 f.2.2 t ∧
      t.a = (loadOperand f.2.1 s).val ∧ t.x = s.x ∧ t.y = s.y ∧ t.p = Forms.nz t.a s.p) ∧
    (∀ f ∈ Forms.ldx b w, ∃ t, exec f.1 s = .next t ∧ Forms.Reads s f.2.1 f.2.2 t ∧
      t.x = (loadOperand f.2.1 s).val ∧ t.a = s.a ∧ t.y = s.y ∧ t.p = Forms.nz t.x s.p) ∧
    (∀ f ∈ Forms.ldy b w, ∃ t, exec f.1 s = .next t ∧ Forms.Reads s f.2.1 f.2.2 t ∧
      t.y = (loadOperand f.2.1 s).val ∧ t.a = s.a ∧ t.x = s.x ∧ t.p = Forms.nz t.y s.p)

/-- STA, STX and STY complete in every mode, write the register at the effective address and change nothing else.
Formalises R82, R83, R84. -/
def Obligations.StoresWriteTheRegister : Prop :=
  ∀ (s : State) (b : Byte) (w : Word),
    (∀ f ∈ Forms.sta b w, ∃ t, exec f.1 s = .next t ∧ (let ea := (effectiveAddress f.2.1 s).addr
      Forms.StoresByte s ea s.a t ∧ Forms.CpuOnly (memWrite s ea s.a) t) ∧
      t.pc = s.pc + BitVec.ofNat 16 (memLength f.2.1) ∧ t.stepCycles = f.2.2 ∧
      t.a = s.a ∧ t.x = s.x ∧ t.y = s.y ∧ t.sp = s.sp ∧ t.p = s.p) ∧
    (∀ f ∈ Forms.stx b w, ∃ t, exec f.1 s = .next t ∧ (let ea := (effectiveAddress f.2.1 s).addr
      Forms.StoresByte s ea s.x t ∧ Forms.CpuOnly (memWrite s ea s.x) t) ∧
      t.pc = s.pc + BitVec.ofNat 16 (memLength f.2.1) ∧ t.stepCycles = f.2.2 ∧
      t.a = s.a ∧ t.x = s.x ∧ t.y = s.y ∧ t.sp = s.sp ∧ t.p = s.p) ∧
    (∀ f ∈ Forms.sty b w, ∃ t, exec f.1 s = .next t ∧ (let ea := (effectiveAddress f.2.1 s).addr
      Forms.StoresByte s ea s.y t ∧ Forms.CpuOnly (memWrite s ea s.y) t) ∧
      t.pc = s.pc + BitVec.ofNat 16 (memLength f.2.1) ∧ t.stepCycles = f.2.2 ∧
      t.a = s.a ∧ t.x = s.x ∧ t.y = s.y ∧ t.sp = s.sp ∧ t.p = s.p)

/-- TAX TAY TXA TYA TSX copy and set N, Z; TXS copies and sets no flag. Formalises R85, R86, R87, R88, R89, R90. -/
def Obligations.TransfersCopyRegisters : Prop :=
  ∀ s : State,
    (∃ t, exec .tax s = .next t ∧ Forms.Implied s 2 t ∧ t.x = s.a ∧ t.a = s.a ∧ t.y = s.y ∧ t.sp = s.sp ∧ t.p = Forms.nz s.a s.p) ∧
    (∃ t, exec .tay s = .next t ∧ Forms.Implied s 2 t ∧ t.y = s.a ∧ t.a = s.a ∧ t.x = s.x ∧ t.sp = s.sp ∧ t.p = Forms.nz s.a s.p) ∧
    (∃ t, exec .txa s = .next t ∧ Forms.Implied s 2 t ∧ t.a = s.x ∧ t.x = s.x ∧ t.y = s.y ∧ t.sp = s.sp ∧ t.p = Forms.nz s.x s.p) ∧
    (∃ t, exec .tya s = .next t ∧ Forms.Implied s 2 t ∧ t.a = s.y ∧ t.x = s.x ∧ t.y = s.y ∧ t.sp = s.sp ∧ t.p = Forms.nz s.y s.p) ∧
    (∃ t, exec .tsx s = .next t ∧ Forms.Implied s 2 t ∧ t.x = s.sp ∧ t.a = s.a ∧ t.y = s.y ∧ t.sp = s.sp ∧ t.p = Forms.nz s.sp s.p) ∧
    (∃ t, exec .txs s = .next t ∧ Forms.Implied s 2 t ∧ t.sp = s.x ∧ t.a = s.a ∧ t.x = s.x ∧ t.y = s.y ∧ t.p = s.p)

/-- PHA and PHP store A or the status byte with B = 1 at $0100+S and lower S, with silent wrap. Formalises R91, R92. -/
def Obligations.PushInstructions : Prop :=
  ∀ s : State,
    let bit (b : Bool) (v : Nat) : Nat := if b then v else 0
    (∃ t, exec .pha s = .next t ∧ Forms.StoresByte s (BitVec.ofNat 16 (256 + s.sp.toNat)) s.a t ∧
      ramByte t (BitVec.ofNat 16 (256 + s.sp.toNat)) = s.a ∧ Forms.RamAndCpuOnly s t ∧ t.sp = s.sp - 1 ∧
      t.pc = s.pc + 1 ∧ t.stepCycles = 3 ∧ t.a = s.a ∧ t.x = s.x ∧ t.y = s.y ∧ t.p = s.p) ∧
    (∃ t v, exec .php s = .next t ∧
      v = bit s.p.n 128 + bit s.p.v 64 + 32 + 16 + bit s.p.d 8 + bit s.p.i 4 + bit s.p.z 2 + bit s.p.c 1 ∧
      Forms.StoresByte s (BitVec.ofNat 16 (256 + s.sp.toNat)) (BitVec.ofNat 8 v) t ∧
      ramByte t (BitVec.ofNat 16 (256 + s.sp.toNat)) = BitVec.ofNat 8 v ∧ Forms.RamAndCpuOnly s t ∧ t.sp = s.sp - 1 ∧
      t.pc = s.pc + 1 ∧ t.stepCycles = 3 ∧ t.a = s.a ∧ t.x = s.x ∧ t.y = s.y ∧ t.p = s.p)

/-- PLA and PLP raise S and take A, or the six flags, from the stack byte; bits 5 and 4 are dropped. Formalises R93, R94. -/
def Obligations.PullInstructions : Prop :=
  ∀ s : State,
    let v : Byte := ramByte s (BitVec.ofNat 16 (256 + (s.sp + 1).toNat))
    (∃ t, exec .pla s = .next t ∧ Forms.Implied s 4 t ∧ t.sp = s.sp + 1 ∧ t.a = v ∧ t.x = s.x ∧ t.y = s.y ∧
      t.p = Forms.nz v s.p) ∧
    (∃ t, exec .plp s = .next t ∧ Forms.Implied s 4 t ∧ t.sp = s.sp + 1 ∧ t.a = s.a ∧ t.x = s.x ∧ t.y = s.y ∧
      t.p = { n := decide (128 ≤ v.toNat), v := decide (v.toNat / 64 % 2 = 1), d := decide (v.toNat / 8 % 2 = 1)
              i := decide (v.toNat / 4 % 2 = 1), z := decide (v.toNat / 2 % 2 = 1), c := decide (v.toNat % 2 = 1) })

/-- ADC with D = 0: the sum modulo 256, C the carry, V the signed overflow, N and Z of the result. From 43_arithmetic.md
sections 1 and 2, R95, R96. -/
def Obligations.AdcBinaryResult : Prop :=
  ∀ (s : State) (b : Byte) (w : Word), s.p.d = false → ∀ f ∈ Forms.adc b w,
    ∃ t, exec f.1 s = .next t ∧ Forms.Reads s f.2.1 f.2.2 t ∧ t.x = s.x ∧ t.y = s.y ∧
      (let m := (loadOperand f.2.1 s).val
       let cin : Nat := if s.p.c then 1 else 0
       let sum : Nat := s.a.toNat + m.toNat + cin
       let signed : Int := s.a.toInt + m.toInt + cin
       t.a.toNat = sum % 256 ∧
       t.p = { n := decide (128 ≤ sum % 256), v := decide (signed < -128 ∨ 127 < signed), d := false, i := s.p.i
               z := decide (sum % 256 = 0), c := decide (256 ≤ sum) })

/-- ADC with D = 1: the BCD sum and carry for valid BCD operands, N and Z of the result, no extra cycle. Formalises R97. -/
def Obligations.AdcDecimalResult : Prop :=
  ∀ (s : State) (b : Byte) (w : Word), s.p.d = true → ∀ f ∈ Forms.adc b w,
    ∃ t, exec f.1 s = .next t ∧ Forms.Reads s f.2.1 f.2.2 t ∧ t.x = s.x ∧ t.y = s.y ∧
      (let m := (loadOperand f.2.1 s).val
       let cin : Nat := if s.p.c then 1 else 0
       let bcd (v : Byte) : Nat := v.toNat / 16 * 10 + v.toNat % 16
       let valid (v : Byte) : Prop := v.toNat / 16 ≤ 9 ∧ v.toNat % 16 ≤ 9
       let digit : Nat := s.a.toNat % 16 + m.toNat % 16 + cin
       let lo : Nat := if 10 ≤ digit then (digit + 6) % 16 + 16 else digit
       let high (v : Byte) : Int := (if 128 ≤ v.toNat then (v.toNat : Int) - 256 else v.toNat) - v.toNat % 16
       let sv : Int := high s.a + high m + lo
       let total : Nat := s.a.toNat / 16 * 16 + m.toNat / 16 * 16 + lo
       let adjusted : Nat := if 0xA0 ≤ total then total + 0x60 else total
       t.a.toNat = adjusted % 256 ∧
       t.p = { n := decide (128 ≤ t.a.toNat), v := decide (sv < -128 ∨ 127 < sv), d := true, i := s.p.i
               z := decide (t.a.toNat = 0), c := decide (256 ≤ adjusted) } ∧
       (valid s.a → valid m → valid t.a ∧ bcd t.a = (bcd s.a + bcd m + cin) % 100 ∧
         t.p.c = decide (100 ≤ bcd s.a + bcd m + cin)))

/-- SBC: the difference (binary or BCD), C = no borrow and V = signed overflow of the binary difference. Formalises R98,
R99. -/
def Obligations.SbcResult : Prop :=
  ∀ (s : State) (b : Byte) (w : Word), ∀ f ∈ Forms.sbc b w,
    ∃ t, exec f.1 s = .next t ∧ Forms.Reads s f.2.1 f.2.2 t ∧ t.x = s.x ∧ t.y = s.y ∧
      (let m := (loadOperand f.2.1 s).val
       let borrow : Int := if s.p.c then 0 else 1
       let diff : Int := s.a.toNat - m.toNat - borrow
       let signed : Int := s.a.toInt - m.toInt - borrow
       let bcd (v : Byte) : Int := v.toNat / 16 * 10 + v.toNat % 16
       let valid (v : Byte) : Prop := v.toNat / 16 ≤ 9 ∧ v.toNat % 16 ≤ 9
       let digit : Int := (s.a.toNat % 16 : Nat) - (m.toNat % 16 : Nat) - borrow
       let lo : Int := if digit < 0 then (digit - 6) % 16 - 16 else digit
       let total : Int := (s.a.toNat / 16 * 16 : Nat) - (m.toNat / 16 * 16 : Nat) + lo
       let adjusted : Int := if total < 0 then total - 0x60 else total
       (t.a.toNat : Int) = (if s.p.d then adjusted % 256 else diff % 256) ∧
       t.p = { n := decide (128 ≤ t.a.toNat), v := decide (signed < -128 ∨ 127 < signed), d := s.p.d, i := s.p.i
               z := decide (t.a.toNat = 0), c := decide (0 ≤ diff) } ∧
       (s.p.d = true → valid s.a → valid m → valid t.a ∧ bcd t.a = (bcd s.a - bcd m - borrow) % 100 ∧
         t.p.c = decide (0 ≤ bcd s.a - bcd m - borrow)))

/-- CMP, CPX and CPY complete in every form: C = register >= operand, Z = equal, N = bit 7 of the difference. Formalises
R100, R101, R102. -/
def Obligations.CompareSetsCarryOnNoBorrow : Prop :=
  ∀ (s : State) (b : Byte) (w : Word),
    (∀ f ∈ Forms.cmp b w, ∃ t, exec f.1 s = .next t ∧ Forms.Reads s f.2.1 f.2.2 t ∧ t.a = s.a ∧ t.x = s.x ∧ t.y = s.y ∧
      (let m := (loadOperand f.2.1 s).val
       t.p = { s.p with n := decide (128 ≤ (s.a.toNat + 256 - m.toNat) % 256), z := decide (s.a = m)
                        c := decide (m.toNat ≤ s.a.toNat) })) ∧
    (∀ f ∈ Forms.cpx b w, ∃ t, exec f.1 s = .next t ∧ Forms.Reads s f.2.1 f.2.2 t ∧ t.a = s.a ∧ t.x = s.x ∧ t.y = s.y ∧
      (let m := (loadOperand f.2.1 s).val
       t.p = { s.p with n := decide (128 ≤ (s.x.toNat + 256 - m.toNat) % 256), z := decide (s.x = m)
                        c := decide (m.toNat ≤ s.x.toNat) })) ∧
    (∀ f ∈ Forms.cpy b w, ∃ t, exec f.1 s = .next t ∧ Forms.Reads s f.2.1 f.2.2 t ∧ t.a = s.a ∧ t.x = s.x ∧ t.y = s.y ∧
      (let m := (loadOperand f.2.1 s).val
       t.p = { s.p with n := decide (128 ≤ (s.y.toNat + 256 - m.toNat) % 256), z := decide (s.y = m)
                        c := decide (m.toNat ≤ s.y.toNat) }))

/-- INC DEC on memory and INX INY DEX DEY step a byte modulo 256 and set N, Z; no other flag changes. Formalises R103,
R104, R105, R106, R107, R108. -/
def Obligations.IncrementsAndDecrements : Prop :=
  ∀ (s : State) (b : Byte) (w : Word),
    (∀ f ∈ Forms.inc b w, ∃ t, exec f.1 s = .next t ∧
      (let ea := (effectiveAddress f.2.1 s).addr
       let r := memRead s ea
       let new := BitVec.ofNat 8 (r.1.toNat + 1)
       Forms.StoresByte s ea new t ∧ Forms.CpuOnly (memWrite r.2 ea new) t ∧ t.p = Forms.nz new s.p) ∧
      t.pc = s.pc + BitVec.ofNat 16 (memLength f.2.1) ∧ t.stepCycles = f.2.2 ∧
      t.a = s.a ∧ t.x = s.x ∧ t.y = s.y ∧ t.sp = s.sp) ∧
    (∀ f ∈ Forms.dec b w, ∃ t, exec f.1 s = .next t ∧
      (let ea := (effectiveAddress f.2.1 s).addr
       let r := memRead s ea
       let new := BitVec.ofNat 8 (r.1.toNat + 255)
       Forms.StoresByte s ea new t ∧ Forms.CpuOnly (memWrite r.2 ea new) t ∧ t.p = Forms.nz new s.p) ∧
      t.pc = s.pc + BitVec.ofNat 16 (memLength f.2.1) ∧ t.stepCycles = f.2.2 ∧
      t.a = s.a ∧ t.x = s.x ∧ t.y = s.y ∧ t.sp = s.sp) ∧
    (∃ t, exec .inx s = .next t ∧ Forms.Implied s 2 t ∧ t.x.toNat = (s.x.toNat + 1) % 256 ∧ t.a = s.a ∧ t.y = s.y ∧ t.sp = s.sp ∧
      t.p = Forms.nz t.x s.p) ∧
    (∃ t, exec .iny s = .next t ∧ Forms.Implied s 2 t ∧ t.y.toNat = (s.y.toNat + 1) % 256 ∧ t.a = s.a ∧ t.x = s.x ∧ t.sp = s.sp ∧
      t.p = Forms.nz t.y s.p) ∧
    (∃ t, exec .dex s = .next t ∧ Forms.Implied s 2 t ∧ t.x.toNat = (s.x.toNat + 255) % 256 ∧ t.a = s.a ∧ t.y = s.y ∧ t.sp = s.sp ∧
      t.p = Forms.nz t.x s.p) ∧
    (∃ t, exec .dey s = .next t ∧ Forms.Implied s 2 t ∧ t.y.toNat = (s.y.toNat + 255) % 256 ∧ t.a = s.a ∧ t.x = s.x ∧ t.sp = s.sp ∧
      t.p = Forms.nz t.y s.p)

/-- AND, ORA and EOR combine A with the operand bit by bit and set N, Z; BIT sets N, V, Z only. Formalises R109, R110,
R111, R112. -/
def Obligations.LogicInstructions : Prop :=
  ∀ (s : State) (b : Byte) (w : Word),
    (∀ f ∈ Forms.and b w, ∃ t, exec f.1 s = .next t ∧ Forms.Reads s f.2.1 f.2.2 t ∧ t.x = s.x ∧ t.y = s.y ∧
      (∀ k : Nat, k < 8 → t.a.getLsbD k = (and (s.a.getLsbD k) ((loadOperand f.2.1 s).val.getLsbD k))) ∧ t.p = Forms.nz t.a s.p) ∧
    (∀ f ∈ Forms.ora b w, ∃ t, exec f.1 s = .next t ∧ Forms.Reads s f.2.1 f.2.2 t ∧ t.x = s.x ∧ t.y = s.y ∧
      (∀ k : Nat, k < 8 → t.a.getLsbD k = (or (s.a.getLsbD k) ((loadOperand f.2.1 s).val.getLsbD k))) ∧ t.p = Forms.nz t.a s.p) ∧
    (∀ f ∈ Forms.eor b w, ∃ t, exec f.1 s = .next t ∧ Forms.Reads s f.2.1 f.2.2 t ∧ t.x = s.x ∧ t.y = s.y ∧
      (∀ k : Nat, k < 8 → t.a.getLsbD k = (xor (s.a.getLsbD k) ((loadOperand f.2.1 s).val.getLsbD k))) ∧ t.p = Forms.nz t.a s.p) ∧
    (∀ f ∈ Forms.bit b w, ∃ t, exec f.1 s = .next t ∧ Forms.Reads s f.2.1 f.2.2 t ∧ t.a = s.a ∧ t.x = s.x ∧ t.y = s.y ∧
      (let m := (loadOperand f.2.1 s).val
       t.p = { s.p with n := decide (128 ≤ m.toNat), v := decide (64 ≤ m.toNat % 128), z := t.p.z } ∧
       (t.p.z = true ↔ ∀ k : Nat, k < 8 → ¬(s.a.getLsbD k = true ∧ m.getLsbD k = true))))

/-- ASL, LSR, ROL, ROR on A or memory: the shifted byte, C the bit shifted out, N and Z of the result. Formalises R113,
R114, R115, R116. -/
def Obligations.ShiftsAndRotates : Prop :=
  ∀ (s : State) (b : Byte) (w : Word),
    let cin : Nat := if s.p.c then 1 else 0
    (∃ t, exec .aslAcc s = .next t ∧ Forms.Implied s 2 t ∧ t.a = BitVec.ofNat 8 (2 * s.a.toNat) ∧ t.x = s.x ∧ t.y = s.y ∧ t.sp = s.sp ∧
      t.p = Forms.nz t.a { s.p with c := decide (128 ≤ s.a.toNat) }) ∧
    (∃ t, exec .lsrAcc s = .next t ∧ Forms.Implied s 2 t ∧ t.a = BitVec.ofNat 8 (s.a.toNat / 2) ∧ t.x = s.x ∧ t.y = s.y ∧ t.sp = s.sp ∧
      t.p = Forms.nz t.a { s.p with c := decide (s.a.toNat % 2 = 1) }) ∧
    (∃ t, exec .rolAcc s = .next t ∧ Forms.Implied s 2 t ∧ t.a = BitVec.ofNat 8 (2 * s.a.toNat + cin) ∧ t.x = s.x ∧ t.y = s.y ∧ t.sp = s.sp ∧
      t.p = Forms.nz t.a { s.p with c := decide (128 ≤ s.a.toNat) }) ∧
    (∃ t, exec .rorAcc s = .next t ∧ Forms.Implied s 2 t ∧ t.a = BitVec.ofNat 8 (s.a.toNat / 2 + 128 * cin) ∧ t.x = s.x ∧ t.y = s.y ∧ t.sp = s.sp ∧
      t.p = Forms.nz t.a { s.p with c := decide (s.a.toNat % 2 = 1) }) ∧
    (∀ f ∈ Forms.asl b w, ∃ t, exec f.1 s = .next t ∧
      (let ea := (effectiveAddress f.2.1 s).addr
       let r := memRead s ea
       let new := BitVec.ofNat 8 (2 * r.1.toNat)
       Forms.StoresByte s ea new t ∧ Forms.CpuOnly (memWrite r.2 ea new) t ∧ t.p = Forms.nz new { s.p with c := decide (128 ≤ r.1.toNat) }) ∧
      t.pc = s.pc + BitVec.ofNat 16 (memLength f.2.1) ∧ t.stepCycles = f.2.2 ∧
      t.a = s.a ∧ t.x = s.x ∧ t.y = s.y ∧ t.sp = s.sp) ∧
    (∀ f ∈ Forms.lsr b w, ∃ t, exec f.1 s = .next t ∧
      (let ea := (effectiveAddress f.2.1 s).addr
       let r := memRead s ea
       let new := BitVec.ofNat 8 (r.1.toNat / 2)
       Forms.StoresByte s ea new t ∧ Forms.CpuOnly (memWrite r.2 ea new) t ∧ t.p = Forms.nz new { s.p with c := decide (r.1.toNat % 2 = 1) }) ∧
      t.pc = s.pc + BitVec.ofNat 16 (memLength f.2.1) ∧ t.stepCycles = f.2.2 ∧
      t.a = s.a ∧ t.x = s.x ∧ t.y = s.y ∧ t.sp = s.sp) ∧
    (∀ f ∈ Forms.rol b w, ∃ t, exec f.1 s = .next t ∧
      (let ea := (effectiveAddress f.2.1 s).addr
       let r := memRead s ea
       let new := BitVec.ofNat 8 (2 * r.1.toNat + cin)
       Forms.StoresByte s ea new t ∧ Forms.CpuOnly (memWrite r.2 ea new) t ∧ t.p = Forms.nz new { s.p with c := decide (128 ≤ r.1.toNat) }) ∧
      t.pc = s.pc + BitVec.ofNat 16 (memLength f.2.1) ∧ t.stepCycles = f.2.2 ∧
      t.a = s.a ∧ t.x = s.x ∧ t.y = s.y ∧ t.sp = s.sp) ∧
    (∀ f ∈ Forms.ror b w, ∃ t, exec f.1 s = .next t ∧
      (let ea := (effectiveAddress f.2.1 s).addr
       let r := memRead s ea
       let new := BitVec.ofNat 8 (r.1.toNat / 2 + 128 * cin)
       Forms.StoresByte s ea new t ∧ Forms.CpuOnly (memWrite r.2 ea new) t ∧ t.p = Forms.nz new { s.p with c := decide (r.1.toNat % 2 = 1) }) ∧
      t.pc = s.pc + BitVec.ofNat 16 (memLength f.2.1) ∧ t.stepCycles = f.2.2 ∧
      t.a = s.a ∧ t.x = s.x ∧ t.y = s.y ∧ t.sp = s.sp)

/-- JMP, JSR and RTS complete with the PC, stack bytes and S of their rules; JMP (ind) stays in the pointer page.
Formalises R117, R118, R119. -/
def Obligations.JumpsAndSubroutines : Prop :=
  ∀ (s : State) (w : Word),
    (∃ t, exec (.jmpAbs w) s = .next t ∧ t = { s with pc := w, stepCycles := 3 }) ∧
    (∃ t, exec (.jmpInd w) s = .next t ∧
      (let lo := memRead s w
       let hi := memRead lo.2 (BitVec.ofNat 16 (w.toNat / 256 * 256 + (w.toNat + 1) % 256))
       t.pc.toNat = lo.1.toNat + 256 * hi.1.toNat ∧ t = { hi.2 with pc := t.pc, stepCycles := 5 }) ∧
      (∀ a : Word, ramByte t a = ramByte s a) ∧ Forms.ReadsOnly s t ∧
      t.a = s.a ∧ t.x = s.x ∧ t.y = s.y ∧ t.sp = s.sp ∧ t.p = s.p) ∧
    (∃ t, exec (.jsrAbs w) s = .next t ∧ t.pc = w ∧ t.sp = s.sp - 2 ∧
      ramByte t (stackAddr s.sp) = hiByte (s.pc + 2) ∧ ramByte t (stackAddr (s.sp - 1)) = loByte (s.pc + 2) ∧
      (∀ a : Word, a ≠ stackAddr s.sp → a ≠ stackAddr (s.sp - 1) → ramByte t a = ramByte s a) ∧
      t.stepCycles = 6 ∧ t.a = s.a ∧ t.x = s.x ∧ t.y = s.y ∧ t.p = s.p ∧ Forms.RamAndCpuOnly s t) ∧
    (∃ t, exec .rts s = .next t ∧ t.sp = s.sp + 2 ∧
      t.pc.toNat = ((ramByte s (stackAddr (s.sp + 1))).toNat + 256 * (ramByte s (stackAddr (s.sp + 2))).toNat + 1) % 65536 ∧
      t = { s with pc := t.pc, sp := t.sp, stepCycles := 6 } ∧ (∀ a : Word, ramByte t a = ramByte s a))

/-- BRK pushes PC + 2 and the status with B = 1, sets I and goes to $FFFE; RTI pulls the flags, then PC. Formalises R120,
R121. -/
def Obligations.BreakAndReturnFromInterrupt : Prop :=
  ∀ s : State,
    (∃ t, exec .brk s = .next t ∧
      ramByte t (stackAddr s.sp) = hiByte (s.pc + 2) ∧ ramByte t (stackAddr (s.sp - 1)) = loByte (s.pc + 2) ∧
      ramByte t (stackAddr (s.sp - 2)) = pImage true s.p ∧
      (∀ a : Word, a ≠ stackAddr s.sp → a ≠ stackAddr (s.sp - 1) → a ≠ stackAddr (s.sp - 2) →
        ramByte t a = ramByte s a) ∧
      t.sp = s.sp - 3 ∧ t.p = { s.p with i := true } ∧ t.pc = mkWord (memRead s 0xFFFE).1 (memRead s 0xFFFF).1 ∧
      t.stepCycles = 7 ∧ t.a = s.a ∧ t.x = s.x ∧ t.y = s.y ∧ Forms.RamAndCpuOnly s t) ∧
    (∃ t, exec .rti s = .next t ∧
      (let v := (ramByte s (stackAddr (s.sp + 1))).toNat
       t.p = { n := decide (128 ≤ v), v := decide (v / 64 % 2 = 1), d := decide (v / 8 % 2 = 1)
               i := decide (v / 4 % 2 = 1), z := decide (v / 2 % 2 = 1), c := decide (v % 2 = 1) }) ∧
      t.pc = mkWord (ramByte s (stackAddr (s.sp + 2))) (ramByte s (stackAddr (s.sp + 3))) ∧
      t.sp = s.sp + 3 ∧ t = { s with pc := t.pc, sp := t.sp, p := t.p, stepCycles := 6 })

/-- Each of the eight branches goes to PC + 2 + offset or PC + 2, costs 2, 3 or 4, and changes nothing else. Formalises
R73, R209. -/
def Obligations.BranchesGoToNextOrTarget : Prop :=
  ∀ (s : State) (off : Int), -128 ≤ off → off ≤ 127 →
    ∀ f ∈ ([(.bpl off, s.p.n, false), (.bmi off, s.p.n, true), (.bvc off, s.p.v, false), (.bvs off, s.p.v, true),
            (.bcc off, s.p.c, false), (.bcs off, s.p.c, true), (.bne off, s.p.z, false), (.beq off, s.p.z, true)] :
            List (Instr × Bool × Bool)),
      let next : Int := (s.pc.toNat + 2) % 65536
      let target : Int := (s.pc.toNat + 2 + off) % 65536
      ∃ t, exec f.1 s = .next t ∧ t = { s with pc := t.pc, stepCycles := t.stepCycles } ∧
        (f.2.1 = f.2.2 → (t.pc.toNat : Int) = target ∧
          t.stepCycles = if target / 256 = next / 256 then 3 else 4) ∧
        (f.2.1 ≠ f.2.2 → (t.pc.toNat : Int) = next ∧ t.stepCycles = 2)

/-- Each flag instruction sets its one flag, NOP none, and everything else is unchanged. Formalises R130, R131, R132,
R133, R134, R135, R136, R137. -/
def Obligations.FlagInstructionsAndNop : Prop :=
  (∀ s : State,
    ∀ f ∈ ([(.clc, { s.p with c := false }), (.sec, { s.p with c := true }), (.cld, { s.p with d := false }),
            (.sed, { s.p with d := true }), (.cli, { s.p with i := false }), (.sei, { s.p with i := true }),
            (.clv, { s.p with v := false }), (.nop, s.p)] : List (Instr × Flags)),
      exec f.1 s = .next { s with p := f.2, pc := s.pc + 1, stepCycles := 2 }) ∧
  (∀ s t u : State, exec .cli s = .next t → u.p = t.p → u.fault = none → u.nmiPending = false → u.irqPending = true →
    cpuStep u = .next (interruptEntry irqVector { u with irqPending := false })) ∧
  (∀ s t u : State, exec .sei s = .next t → u.p = t.p → u.fault = none →
    (u.nmiPending = false → NoInterrupt u) ∧
    (u.nmiPending = true → cpuStep u = .next (interruptEntry nmiVector { u with nmiPending := false })) ∧
    exec .brk u = .next (takeException (u.pc + 2) true irqVector u))

/-! ### Reset -/

/-- reset() loads PC from $FFFC, S = $FD, P = $24, clears the pending bits and changes nothing else. Formalises R197. -/
def Obligations.ResetProcedure : Prop :=
  ∀ s : State,
    cpuReset s = { s with
      pc := mkWord (memRead s 0xFFFC).1 (memRead s 0xFFFD).1, sp := 0xFD
      p := { n := false, v := false, d := false, i := true, z := false, c := false }
      nmiPending := false, irqPending := false }

/-- Start-up needs ROM images of the exact lengths and then stands at the vector of the KERNAL image. From
63_machine_loop.md section 5, 70_reset_and_hazards.md section 1, R193, R198. -/
def Obligations.StartupLoadsTheResetVector : Prop :=
  ∀ i : PowerOn,
    (¬(i.romBasic.length = 8192 ∧ i.romKernal.length = 8192 ∧ i.romChar.length = 4096) → startup i = .exit2) ∧
    (i.romBasic.length = 8192 → i.romKernal.length = 8192 → i.romChar.length = 4096 →
      ∃ s, startup i = .running s ∧ (bankCfg s).toNat = 7 ∧
        some s.pc = (match i.romKernal[0x1FFC]?, i.romKernal[0x1FFD]? with
          | some lo, some hi => some (mkWord lo hi)
          | _, _ => none) ∧
        s.sp = 0xFD ∧ s.p = { n := false, v := false, d := false, i := true, z := false, c := false } ∧
        s.a = i.a ∧ s.x = i.x ∧ s.y = i.y ∧ s.ram = i.ram ∧ s.color = i.color ∧
        (∀ k : Nat, k < 8192 → i.romBasic[k]? = some (Memory.read Config.basicFill s.romBasic k)) ∧
        (∀ k : Nat, k < 8192 → i.romKernal[k]? = some (Memory.read Config.kernalFill s.romKernal k)) ∧
        (∀ k : Nat, k < 4096 → i.romChar[k]? = some (Memory.read Config.charFill s.romChar k)) ∧
        vicIrqLine s.vic = false ∧ ciaLine s.ciaA = false ∧ ciaLine s.ciaB = false ∧
        s.nmiPending = false ∧ s.irqPending = false)

/-! ### The CIA register file -/

/-- What every CIA register reads, and what a write of ports, timer low bytes, TOD and SDR stores. From 62_cia.md sections
1 and 2, R168, R169, R170, R171, R172, R182. -/
def Obligations.CiaRegisterFile : Prop :=
  ∀ (portB : Byte) (c : Cia) (v : Byte),
    let reads (i : BitVec 4) : Byte := (ciaRead portB c i).1
    let pin (data ddr : Byte) (k : Nat) : Bool := if ddr.getLsbD k then data.getLsbD k else true
    (∀ k : Nat, k < 8 → (reads 0).getLsbD k = pin c.pra c.ddra k ∧ (ciaPortB c).getLsbD k = pin c.prb c.ddrb k) ∧
    reads 1 = portB ∧ reads 2 = c.ddra ∧ reads 3 = c.ddrb ∧
    (reads 4).toNat = c.taCnt.toNat % 256 ∧ (reads 5).toNat = c.taCnt.toNat / 256 ∧
    (reads 6).toNat = c.tbCnt.toNat % 256 ∧ (reads 7).toNat = c.tbCnt.toNat / 256 ∧
    reads 8 = c.tod[0] ∧ reads 9 = c.tod[1] ∧ reads 10 = c.tod[2] ∧ reads 11 = c.tod[3] ∧ reads 12 = c.sdr ∧
    reads 14 = c.cra ∧ reads 15 = c.crb ∧
    (∀ i : BitVec 4, i ≠ 13 → (ciaRead portB c i).2 = c) ∧
    ciaWrite c 0 v = { c with pra := v } ∧ ciaWrite c 1 v = { c with prb := v } ∧
    ciaWrite c 2 v = { c with ddra := v } ∧ ciaWrite c 3 v = { c with ddrb := v } ∧
    (let t := ciaWrite c 4 v
     t.taLatch.toNat = c.taLatch.toNat / 256 * 256 + v.toNat ∧ t = { c with taLatch := t.taLatch }) ∧
    (let t := ciaWrite c 6 v
     t.tbLatch.toNat = c.tbLatch.toNat / 256 * 256 + v.toNat ∧ t = { c with tbLatch := t.tbLatch }) ∧
    (∀ j : Fin 4,
      let t := ciaWrite c (BitVec.ofNat 4 (8 + j.val)) v
      t = { c with tod := t.tod } ∧ ∀ k : Fin 4, t.tod[k] = if k = j then v else c.tod[k]) ∧
    ciaWrite c 12 v = { c with sdr := v } ∧
    (∀ i : BitVec 4, (ciaWrite c i v).icrLatch = c.icrLatch) ∧
    (∀ n : Nat,
      let t := ciaTick n c
      t.pra = c.pra ∧ t.prb = c.prb ∧ t.ddra = c.ddra ∧ t.ddrb = c.ddrb ∧ t.tod = c.tod ∧ t.sdr = c.sdr) ∧
    ∀ (s : State) (a : Word), readSource s a = .io →
      (a.toNat / 256 = 0xDC →
        (memRead s a).1 = (ciaRead (keyboardPort s.ciaA s.keys) s.ciaA (BitVec.ofNat 4 (a.toNat % 16))).1) ∧
      (a.toNat / 256 = 0xDD →
        (memRead s a).1 = (ciaRead (ciaPortB s.ciaB) s.ciaB (BitVec.ofNat 4 (a.toNat % 16))).1)
end

