-- ==== Sys2Proof/Laws/Memory.lean ====
section
/-! SUPPORT. The laws of sparse memories: read after write, and that every operation keeps the canonical form. -/

namespace Sys2Proof.Machine

@[simp] theorem Memory.read_nil {w : Nat} (fill : BitVec w) (a : Nat) : Memory.read fill [] a = fill := rfl

/-- A canonical memory has nothing listed below its lower bound. -/
theorem Memory.read_below {w : Nat} {size : Nat} {fill : BitVec w} {m : Memory w} {lo a : Nat}
    (h : Memory.wfFrom size fill lo m = true) (ha : a < lo) : Memory.read fill m a = fill := by
  induction m generalizing lo with
  | nil => rfl
  | cons c m ih =>
    obtain ⟨k, u⟩ := c
    simp only [Memory.wfFrom, Bool.and_eq_true, decide_eq_true_eq] at h
    have : a ≠ k := by omega
    simp only [Memory.read, this, if_false]
    exact ih h.2 (by omega)

@[simp] theorem Memory.read_erase_same {w : Nat} (fill : BitVec w) (m : Memory w) (a : Nat) :
    Memory.read fill (Memory.erase m a) a = fill := by
  induction m with
  | nil => rfl
  | cons c m ih =>
    obtain ⟨k, u⟩ := c
    by_cases h : a = k
    · simp [Memory.erase, h]; rw [← h]; exact ih
    · simp [Memory.erase, Memory.read, h, ih]

theorem Memory.read_erase_other {w : Nat} (fill : BitVec w) (m : Memory w) {a b : Nat} (hb : b ≠ a) :
    Memory.read fill (Memory.erase m a) b = Memory.read fill m b := by
  induction m with
  | nil => rfl
  | cons c m ih =>
    obtain ⟨k, u⟩ := c
    by_cases h : a = k
    · have : b ≠ k := h ▸ hb
      simp [Memory.erase, Memory.read, h, this]; rw [← h]; exact ih
    · simp [Memory.erase, Memory.read, h, ih]

@[simp] theorem Memory.read_insert_same {w : Nat} (fill : BitVec w) (m : Memory w) (a : Nat) (v : BitVec w) :
    Memory.read fill (Memory.insert m a v) a = v := by
  induction m with
  | nil => simp [Memory.insert, Memory.read]
  | cons c m ih =>
    obtain ⟨k, u⟩ := c
    simp only [Memory.insert]
    split
    · simp [Memory.read]
    · split
      · next h => simp [Memory.read, h]
      · next h => simp [Memory.read, h, ih]

theorem Memory.read_insert_other {w : Nat} (fill : BitVec w) (m : Memory w) {a b : Nat} (v : BitVec w) (hb : b ≠ a) :
    Memory.read fill (Memory.insert m a v) b = Memory.read fill m b := by
  induction m with
  | nil => simp [Memory.insert, Memory.read, hb]
  | cons c m ih =>
    obtain ⟨k, u⟩ := c
    simp only [Memory.insert]
    split
    · simp [Memory.read, hb]
    · split
      · next h => have : b ≠ k := h ▸ hb; simp [Memory.read, this]
      · simp only [Memory.read, ih]

/-- Reading the address just written gives the value written, whatever the list. -/
@[simp] theorem Memory.read_write_same {w : Nat} (fill : BitVec w) (m : Memory w) (a : Nat) (v : BitVec w) :
    Memory.read fill (Memory.write fill m a v) a = v := by
  by_cases h : v = fill <;> simp [Memory.write, h]

/-- Reading another address than the one written gives what it gave before. -/
theorem Memory.read_write_other {w : Nat} (fill : BitVec w) (m : Memory w) {a b : Nat} (v : BitVec w) (h : b ≠ a) :
    Memory.read fill (Memory.write fill m a v) b = Memory.read fill m b := by
  by_cases hv : v = fill
  · simp [Memory.write, hv, Memory.read_erase_other fill m h]
  · simp [Memory.write, hv, Memory.read_insert_other fill m v h]

/-- A canonical memory is canonical from any lower bound. -/
theorem Memory.wfFrom_mono {w : Nat} {size : Nat} {fill : BitVec w} {m : Memory w} {lo lo' : Nat} (hl : lo' ≤ lo)
    (h : Memory.wfFrom size fill lo m = true) : Memory.wfFrom size fill lo' m = true := by
  cases m with
  | nil => rfl
  | cons c m =>
    obtain ⟨k, u⟩ := c
    simp only [Memory.wfFrom, Bool.and_eq_true, decide_eq_true_eq] at h ⊢
    exact ⟨⟨⟨by omega, h.1.1.2⟩, h.1.2⟩, h.2⟩

/-- Erasing an address keeps the canonical form. -/
theorem Memory.wfFrom_erase {w : Nat} {size : Nat} {fill : BitVec w} {m : Memory w} {lo : Nat} (a : Nat)
    (h : Memory.wfFrom size fill lo m = true) : Memory.wfFrom size fill lo (Memory.erase m a) = true := by
  induction m generalizing lo with
  | nil => rfl
  | cons c m ih =>
    obtain ⟨k, u⟩ := c
    simp only [Memory.wfFrom, Bool.and_eq_true, decide_eq_true_eq] at h
    simp only [Memory.erase]
    split
    · exact Memory.wfFrom_mono (by omega) (ih h.2)
    · simp only [Memory.wfFrom, Bool.and_eq_true, decide_eq_true_eq]
      exact ⟨h.1, ih h.2⟩

/-- Inserting a value other than the fill value, inside the size, keeps the canonical form. -/
theorem Memory.wfFrom_insert {w : Nat} {size : Nat} {fill : BitVec w} {m : Memory w} {lo a : Nat} {v : BitVec w}
    (h : Memory.wfFrom size fill lo m = true) (hl : lo ≤ a) (ha : a < size) (hv : v ≠ fill) :
    Memory.wfFrom size fill lo (Memory.insert m a v) = true := by
  induction m generalizing lo with
  | nil => simp [Memory.insert, Memory.wfFrom, hv, hl, ha]
  | cons c m ih =>
    obtain ⟨k, u⟩ := c
    simp only [Memory.wfFrom, Bool.and_eq_true, decide_eq_true_eq] at h
    simp only [Memory.insert]
    split
    · simp only [Memory.wfFrom, Bool.and_eq_true, decide_eq_true_eq]
      exact ⟨⟨⟨hl, ha⟩, hv⟩, ⟨⟨by omega, h.1.1.2⟩, h.1.2⟩, h.2⟩
    · split
      · simp only [Memory.wfFrom, Bool.and_eq_true, decide_eq_true_eq]
        exact ⟨⟨h.1.1, hv⟩, h.2⟩
      · simp only [Memory.wfFrom, Bool.and_eq_true, decide_eq_true_eq]
        exact ⟨h.1, ih h.2 (by omega)⟩

/-- A write inside the size keeps the canonical form. -/
theorem Memory.wf_write {w : Nat} {size : Nat} {fill : BitVec w} {m : Memory w} {a : Nat} (v : BitVec w)
    (h : Memory.wf size fill m = true) (ha : a < size) : Memory.wf size fill (Memory.write fill m a v) = true := by
  unfold Memory.write
  split
  · exact Memory.wfFrom_erase a h
  · next hv => exact Memory.wfFrom_insert h (Nat.zero_le a) ha hv

/-- The memory of a byte array is canonical. -/
theorem Memory.wfFrom_ofBytes {w : Nat} {size : Nat} {fill : BitVec w} (vs : List (BitVec w)) (k : Nat)
    (h : k + vs.length ≤ size) : Memory.wfFrom size fill k (Memory.ofBytes fill k vs) = true := by
  induction vs generalizing k with
  | nil => rfl
  | cons v vs ih =>
    simp only [List.length_cons] at h
    simp only [Memory.ofBytes]
    split
    · exact Memory.wfFrom_mono (by omega) (ih (k + 1) (by omega))
    · next hv =>
      simp only [Memory.wfFrom, Bool.and_eq_true, decide_eq_true_eq]
      exact ⟨⟨⟨by omega, by omega⟩, hv⟩, ih (k + 1) (by omega)⟩

/-- The memory of a byte array of the right length is canonical. -/
theorem Memory.wf_ofBytes {w : Nat} {size : Nat} {fill : BitVec w} (vs : List (BitVec w)) (h : vs.length = size) :
    Memory.wf size fill (Memory.ofBytes fill 0 vs) = true := Memory.wfFrom_ofBytes vs 0 (by omega)

/-- The memory of a byte array reads as the array. -/
theorem Memory.read_ofBytes {w : Nat} {fill : BitVec w} (vs : List (BitVec w)) (k i : Nat) (h : i < vs.length) :
    Memory.read fill (Memory.ofBytes fill k vs) (k + i) = vs[i] := by
  induction vs generalizing k i with
  | nil => simp at h
  | cons v vs ih =>
    cases i with
    | zero =>
      simp only [Memory.ofBytes, Nat.add_zero, List.getElem_cons_zero]
      split
      · next hv =>
        rw [hv]
        exact Memory.read_below (Memory.wfFrom_ofBytes (size := k + 1 + vs.length) vs (k + 1) (by omega)) (by omega)
      · simp [Memory.read]
    | succ i =>
      have step : k + (i + 1) = (k + 1) + i := by omega
      simp only [List.length_cons] at h
      simp only [Memory.ofBytes, List.getElem_cons_succ]
      split
      · rw [step]; exact ih (k + 1) i (by omega)
      · have : k + (i + 1) ≠ k := by omega
        simp only [Memory.read, this, if_false]
        rw [step]
        exact ih (k + 1) i (by omega)

end Sys2Proof.Machine
end

