-- ==== Sys2Proof/Laws/State.lean ====
section
/-! SUPPORT. One lemma per field per named update of the state, each true by rfl, so that no proof unfolds a record update. -/

namespace Sys2Proof.Machine

/-! ### setA -/

@[simp] theorem setA_a (s : State) (v : Byte) : (setA s v).a = v := rfl
@[simp] theorem setA_x (s : State) (v : Byte) : (setA s v).x = s.x := rfl
@[simp] theorem setA_y (s : State) (v : Byte) : (setA s v).y = s.y := rfl
@[simp] theorem setA_sp (s : State) (v : Byte) : (setA s v).sp = s.sp := rfl
@[simp] theorem setA_pc (s : State) (v : Byte) : (setA s v).pc = s.pc := rfl
@[simp] theorem setA_p (s : State) (v : Byte) : (setA s v).p = s.p := rfl
@[simp] theorem setA_nmiPending (s : State) (v : Byte) : (setA s v).nmiPending = s.nmiPending := rfl
@[simp] theorem setA_irqPending (s : State) (v : Byte) : (setA s v).irqPending = s.irqPending := rfl
@[simp] theorem setA_cycles (s : State) (v : Byte) : (setA s v).cycles = s.cycles := rfl
@[simp] theorem setA_fault (s : State) (v : Byte) : (setA s v).fault = s.fault := rfl
@[simp] theorem setA_stepCycles (s : State) (v : Byte) : (setA s v).stepCycles = s.stepCycles := rfl
@[simp] theorem setA_ram (s : State) (v : Byte) : (setA s v).ram = s.ram := rfl
@[simp] theorem setA_romBasic (s : State) (v : Byte) : (setA s v).romBasic = s.romBasic := rfl
@[simp] theorem setA_romKernal (s : State) (v : Byte) : (setA s v).romKernal = s.romKernal := rfl
@[simp] theorem setA_romChar (s : State) (v : Byte) : (setA s v).romChar = s.romChar := rfl
@[simp] theorem setA_ddr (s : State) (v : Byte) : (setA s v).ddr = s.ddr := rfl
@[simp] theorem setA_data (s : State) (v : Byte) : (setA s v).data = s.data := rfl
@[simp] theorem setA_color (s : State) (v : Byte) : (setA s v).color = s.color := rfl
@[simp] theorem setA_colorDraws (s : State) (v : Byte) : (setA s v).colorDraws = s.colorDraws := rfl
@[simp] theorem setA_vic (s : State) (v : Byte) : (setA s v).vic = s.vic := rfl
@[simp] theorem setA_ciaA (s : State) (v : Byte) : (setA s v).ciaA = s.ciaA := rfl
@[simp] theorem setA_ciaB (s : State) (v : Byte) : (setA s v).ciaB = s.ciaB := rfl
@[simp] theorem setA_keys (s : State) (v : Byte) : (setA s v).keys = s.keys := rfl
@[simp] theorem setA_nmiLinePrev (s : State) (v : Byte) : (setA s v).nmiLinePrev = s.nmiLinePrev := rfl
@[simp] theorem setA_frameCycles (s : State) (v : Byte) : (setA s v).frameCycles = s.frameCycles := rfl
@[simp] theorem setA_paused (s : State) (v : Byte) : (setA s v).paused = s.paused := rfl
@[simp] theorem setA_shutdown (s : State) (v : Byte) : (setA s v).shutdown = s.shutdown := rfl
@[simp] theorem setA_halted (s : State) (v : Byte) : (setA s v).halted = s.halted := rfl
@[simp] theorem setA_frameOpen (s : State) (v : Byte) : (setA s v).frameOpen = s.frameOpen := rfl
@[simp] theorem setA_events (s : State) (v : Byte) : (setA s v).events = s.events := rfl

/-! ### setX -/

@[simp] theorem setX_a (s : State) (v : Byte) : (setX s v).a = s.a := rfl
@[simp] theorem setX_x (s : State) (v : Byte) : (setX s v).x = v := rfl
@[simp] theorem setX_y (s : State) (v : Byte) : (setX s v).y = s.y := rfl
@[simp] theorem setX_sp (s : State) (v : Byte) : (setX s v).sp = s.sp := rfl
@[simp] theorem setX_pc (s : State) (v : Byte) : (setX s v).pc = s.pc := rfl
@[simp] theorem setX_p (s : State) (v : Byte) : (setX s v).p = s.p := rfl
@[simp] theorem setX_nmiPending (s : State) (v : Byte) : (setX s v).nmiPending = s.nmiPending := rfl
@[simp] theorem setX_irqPending (s : State) (v : Byte) : (setX s v).irqPending = s.irqPending := rfl
@[simp] theorem setX_cycles (s : State) (v : Byte) : (setX s v).cycles = s.cycles := rfl
@[simp] theorem setX_fault (s : State) (v : Byte) : (setX s v).fault = s.fault := rfl
@[simp] theorem setX_stepCycles (s : State) (v : Byte) : (setX s v).stepCycles = s.stepCycles := rfl
@[simp] theorem setX_ram (s : State) (v : Byte) : (setX s v).ram = s.ram := rfl
@[simp] theorem setX_romBasic (s : State) (v : Byte) : (setX s v).romBasic = s.romBasic := rfl
@[simp] theorem setX_romKernal (s : State) (v : Byte) : (setX s v).romKernal = s.romKernal := rfl
@[simp] theorem setX_romChar (s : State) (v : Byte) : (setX s v).romChar = s.romChar := rfl
@[simp] theorem setX_ddr (s : State) (v : Byte) : (setX s v).ddr = s.ddr := rfl
@[simp] theorem setX_data (s : State) (v : Byte) : (setX s v).data = s.data := rfl
@[simp] theorem setX_color (s : State) (v : Byte) : (setX s v).color = s.color := rfl
@[simp] theorem setX_colorDraws (s : State) (v : Byte) : (setX s v).colorDraws = s.colorDraws := rfl
@[simp] theorem setX_vic (s : State) (v : Byte) : (setX s v).vic = s.vic := rfl
@[simp] theorem setX_ciaA (s : State) (v : Byte) : (setX s v).ciaA = s.ciaA := rfl
@[simp] theorem setX_ciaB (s : State) (v : Byte) : (setX s v).ciaB = s.ciaB := rfl
@[simp] theorem setX_keys (s : State) (v : Byte) : (setX s v).keys = s.keys := rfl
@[simp] theorem setX_nmiLinePrev (s : State) (v : Byte) : (setX s v).nmiLinePrev = s.nmiLinePrev := rfl
@[simp] theorem setX_frameCycles (s : State) (v : Byte) : (setX s v).frameCycles = s.frameCycles := rfl
@[simp] theorem setX_paused (s : State) (v : Byte) : (setX s v).paused = s.paused := rfl
@[simp] theorem setX_shutdown (s : State) (v : Byte) : (setX s v).shutdown = s.shutdown := rfl
@[simp] theorem setX_halted (s : State) (v : Byte) : (setX s v).halted = s.halted := rfl
@[simp] theorem setX_frameOpen (s : State) (v : Byte) : (setX s v).frameOpen = s.frameOpen := rfl
@[simp] theorem setX_events (s : State) (v : Byte) : (setX s v).events = s.events := rfl

/-! ### setY -/

@[simp] theorem setY_a (s : State) (v : Byte) : (setY s v).a = s.a := rfl
@[simp] theorem setY_x (s : State) (v : Byte) : (setY s v).x = s.x := rfl
@[simp] theorem setY_y (s : State) (v : Byte) : (setY s v).y = v := rfl
@[simp] theorem setY_sp (s : State) (v : Byte) : (setY s v).sp = s.sp := rfl
@[simp] theorem setY_pc (s : State) (v : Byte) : (setY s v).pc = s.pc := rfl
@[simp] theorem setY_p (s : State) (v : Byte) : (setY s v).p = s.p := rfl
@[simp] theorem setY_nmiPending (s : State) (v : Byte) : (setY s v).nmiPending = s.nmiPending := rfl
@[simp] theorem setY_irqPending (s : State) (v : Byte) : (setY s v).irqPending = s.irqPending := rfl
@[simp] theorem setY_cycles (s : State) (v : Byte) : (setY s v).cycles = s.cycles := rfl
@[simp] theorem setY_fault (s : State) (v : Byte) : (setY s v).fault = s.fault := rfl
@[simp] theorem setY_stepCycles (s : State) (v : Byte) : (setY s v).stepCycles = s.stepCycles := rfl
@[simp] theorem setY_ram (s : State) (v : Byte) : (setY s v).ram = s.ram := rfl
@[simp] theorem setY_romBasic (s : State) (v : Byte) : (setY s v).romBasic = s.romBasic := rfl
@[simp] theorem setY_romKernal (s : State) (v : Byte) : (setY s v).romKernal = s.romKernal := rfl
@[simp] theorem setY_romChar (s : State) (v : Byte) : (setY s v).romChar = s.romChar := rfl
@[simp] theorem setY_ddr (s : State) (v : Byte) : (setY s v).ddr = s.ddr := rfl
@[simp] theorem setY_data (s : State) (v : Byte) : (setY s v).data = s.data := rfl
@[simp] theorem setY_color (s : State) (v : Byte) : (setY s v).color = s.color := rfl
@[simp] theorem setY_colorDraws (s : State) (v : Byte) : (setY s v).colorDraws = s.colorDraws := rfl
@[simp] theorem setY_vic (s : State) (v : Byte) : (setY s v).vic = s.vic := rfl
@[simp] theorem setY_ciaA (s : State) (v : Byte) : (setY s v).ciaA = s.ciaA := rfl
@[simp] theorem setY_ciaB (s : State) (v : Byte) : (setY s v).ciaB = s.ciaB := rfl
@[simp] theorem setY_keys (s : State) (v : Byte) : (setY s v).keys = s.keys := rfl
@[simp] theorem setY_nmiLinePrev (s : State) (v : Byte) : (setY s v).nmiLinePrev = s.nmiLinePrev := rfl
@[simp] theorem setY_frameCycles (s : State) (v : Byte) : (setY s v).frameCycles = s.frameCycles := rfl
@[simp] theorem setY_paused (s : State) (v : Byte) : (setY s v).paused = s.paused := rfl
@[simp] theorem setY_shutdown (s : State) (v : Byte) : (setY s v).shutdown = s.shutdown := rfl
@[simp] theorem setY_halted (s : State) (v : Byte) : (setY s v).halted = s.halted := rfl
@[simp] theorem setY_frameOpen (s : State) (v : Byte) : (setY s v).frameOpen = s.frameOpen := rfl
@[simp] theorem setY_events (s : State) (v : Byte) : (setY s v).events = s.events := rfl

/-! ### setSp -/

@[simp] theorem setSp_a (s : State) (v : Byte) : (setSp s v).a = s.a := rfl
@[simp] theorem setSp_x (s : State) (v : Byte) : (setSp s v).x = s.x := rfl
@[simp] theorem setSp_y (s : State) (v : Byte) : (setSp s v).y = s.y := rfl
@[simp] theorem setSp_sp (s : State) (v : Byte) : (setSp s v).sp = v := rfl
@[simp] theorem setSp_pc (s : State) (v : Byte) : (setSp s v).pc = s.pc := rfl
@[simp] theorem setSp_p (s : State) (v : Byte) : (setSp s v).p = s.p := rfl
@[simp] theorem setSp_nmiPending (s : State) (v : Byte) : (setSp s v).nmiPending = s.nmiPending := rfl
@[simp] theorem setSp_irqPending (s : State) (v : Byte) : (setSp s v).irqPending = s.irqPending := rfl
@[simp] theorem setSp_cycles (s : State) (v : Byte) : (setSp s v).cycles = s.cycles := rfl
@[simp] theorem setSp_fault (s : State) (v : Byte) : (setSp s v).fault = s.fault := rfl
@[simp] theorem setSp_stepCycles (s : State) (v : Byte) : (setSp s v).stepCycles = s.stepCycles := rfl
@[simp] theorem setSp_ram (s : State) (v : Byte) : (setSp s v).ram = s.ram := rfl
@[simp] theorem setSp_romBasic (s : State) (v : Byte) : (setSp s v).romBasic = s.romBasic := rfl
@[simp] theorem setSp_romKernal (s : State) (v : Byte) : (setSp s v).romKernal = s.romKernal := rfl
@[simp] theorem setSp_romChar (s : State) (v : Byte) : (setSp s v).romChar = s.romChar := rfl
@[simp] theorem setSp_ddr (s : State) (v : Byte) : (setSp s v).ddr = s.ddr := rfl
@[simp] theorem setSp_data (s : State) (v : Byte) : (setSp s v).data = s.data := rfl
@[simp] theorem setSp_color (s : State) (v : Byte) : (setSp s v).color = s.color := rfl
@[simp] theorem setSp_colorDraws (s : State) (v : Byte) : (setSp s v).colorDraws = s.colorDraws := rfl
@[simp] theorem setSp_vic (s : State) (v : Byte) : (setSp s v).vic = s.vic := rfl
@[simp] theorem setSp_ciaA (s : State) (v : Byte) : (setSp s v).ciaA = s.ciaA := rfl
@[simp] theorem setSp_ciaB (s : State) (v : Byte) : (setSp s v).ciaB = s.ciaB := rfl
@[simp] theorem setSp_keys (s : State) (v : Byte) : (setSp s v).keys = s.keys := rfl
@[simp] theorem setSp_nmiLinePrev (s : State) (v : Byte) : (setSp s v).nmiLinePrev = s.nmiLinePrev := rfl
@[simp] theorem setSp_frameCycles (s : State) (v : Byte) : (setSp s v).frameCycles = s.frameCycles := rfl
@[simp] theorem setSp_paused (s : State) (v : Byte) : (setSp s v).paused = s.paused := rfl
@[simp] theorem setSp_shutdown (s : State) (v : Byte) : (setSp s v).shutdown = s.shutdown := rfl
@[simp] theorem setSp_halted (s : State) (v : Byte) : (setSp s v).halted = s.halted := rfl
@[simp] theorem setSp_frameOpen (s : State) (v : Byte) : (setSp s v).frameOpen = s.frameOpen := rfl
@[simp] theorem setSp_events (s : State) (v : Byte) : (setSp s v).events = s.events := rfl

/-! ### setP -/

@[simp] theorem setP_a (s : State) (f : Flags) : (setP s f).a = s.a := rfl
@[simp] theorem setP_x (s : State) (f : Flags) : (setP s f).x = s.x := rfl
@[simp] theorem setP_y (s : State) (f : Flags) : (setP s f).y = s.y := rfl
@[simp] theorem setP_sp (s : State) (f : Flags) : (setP s f).sp = s.sp := rfl
@[simp] theorem setP_pc (s : State) (f : Flags) : (setP s f).pc = s.pc := rfl
@[simp] theorem setP_p (s : State) (f : Flags) : (setP s f).p = f := rfl
@[simp] theorem setP_nmiPending (s : State) (f : Flags) : (setP s f).nmiPending = s.nmiPending := rfl
@[simp] theorem setP_irqPending (s : State) (f : Flags) : (setP s f).irqPending = s.irqPending := rfl
@[simp] theorem setP_cycles (s : State) (f : Flags) : (setP s f).cycles = s.cycles := rfl
@[simp] theorem setP_fault (s : State) (f : Flags) : (setP s f).fault = s.fault := rfl
@[simp] theorem setP_stepCycles (s : State) (f : Flags) : (setP s f).stepCycles = s.stepCycles := rfl
@[simp] theorem setP_ram (s : State) (f : Flags) : (setP s f).ram = s.ram := rfl
@[simp] theorem setP_romBasic (s : State) (f : Flags) : (setP s f).romBasic = s.romBasic := rfl
@[simp] theorem setP_romKernal (s : State) (f : Flags) : (setP s f).romKernal = s.romKernal := rfl
@[simp] theorem setP_romChar (s : State) (f : Flags) : (setP s f).romChar = s.romChar := rfl
@[simp] theorem setP_ddr (s : State) (f : Flags) : (setP s f).ddr = s.ddr := rfl
@[simp] theorem setP_data (s : State) (f : Flags) : (setP s f).data = s.data := rfl
@[simp] theorem setP_color (s : State) (f : Flags) : (setP s f).color = s.color := rfl
@[simp] theorem setP_colorDraws (s : State) (f : Flags) : (setP s f).colorDraws = s.colorDraws := rfl
@[simp] theorem setP_vic (s : State) (f : Flags) : (setP s f).vic = s.vic := rfl
@[simp] theorem setP_ciaA (s : State) (f : Flags) : (setP s f).ciaA = s.ciaA := rfl
@[simp] theorem setP_ciaB (s : State) (f : Flags) : (setP s f).ciaB = s.ciaB := rfl
@[simp] theorem setP_keys (s : State) (f : Flags) : (setP s f).keys = s.keys := rfl
@[simp] theorem setP_nmiLinePrev (s : State) (f : Flags) : (setP s f).nmiLinePrev = s.nmiLinePrev := rfl
@[simp] theorem setP_frameCycles (s : State) (f : Flags) : (setP s f).frameCycles = s.frameCycles := rfl
@[simp] theorem setP_paused (s : State) (f : Flags) : (setP s f).paused = s.paused := rfl
@[simp] theorem setP_shutdown (s : State) (f : Flags) : (setP s f).shutdown = s.shutdown := rfl
@[simp] theorem setP_halted (s : State) (f : Flags) : (setP s f).halted = s.halted := rfl
@[simp] theorem setP_frameOpen (s : State) (f : Flags) : (setP s f).frameOpen = s.frameOpen := rfl
@[simp] theorem setP_events (s : State) (f : Flags) : (setP s f).events = s.events := rfl

/-! ### finishAt -/

@[simp] theorem finishAt_a (s : State) (w : Word) (n : Nat) : (finishAt s w n).a = s.a := rfl
@[simp] theorem finishAt_x (s : State) (w : Word) (n : Nat) : (finishAt s w n).x = s.x := rfl
@[simp] theorem finishAt_y (s : State) (w : Word) (n : Nat) : (finishAt s w n).y = s.y := rfl
@[simp] theorem finishAt_sp (s : State) (w : Word) (n : Nat) : (finishAt s w n).sp = s.sp := rfl
@[simp] theorem finishAt_pc (s : State) (w : Word) (n : Nat) : (finishAt s w n).pc = w := rfl
@[simp] theorem finishAt_p (s : State) (w : Word) (n : Nat) : (finishAt s w n).p = s.p := rfl
@[simp] theorem finishAt_nmiPending (s : State) (w : Word) (n : Nat) : (finishAt s w n).nmiPending = s.nmiPending := rfl
@[simp] theorem finishAt_irqPending (s : State) (w : Word) (n : Nat) : (finishAt s w n).irqPending = s.irqPending := rfl
@[simp] theorem finishAt_cycles (s : State) (w : Word) (n : Nat) : (finishAt s w n).cycles = s.cycles := rfl
@[simp] theorem finishAt_fault (s : State) (w : Word) (n : Nat) : (finishAt s w n).fault = s.fault := rfl
@[simp] theorem finishAt_stepCycles (s : State) (w : Word) (n : Nat) : (finishAt s w n).stepCycles = n := rfl
@[simp] theorem finishAt_ram (s : State) (w : Word) (n : Nat) : (finishAt s w n).ram = s.ram := rfl
@[simp] theorem finishAt_romBasic (s : State) (w : Word) (n : Nat) : (finishAt s w n).romBasic = s.romBasic := rfl
@[simp] theorem finishAt_romKernal (s : State) (w : Word) (n : Nat) : (finishAt s w n).romKernal = s.romKernal := rfl
@[simp] theorem finishAt_romChar (s : State) (w : Word) (n : Nat) : (finishAt s w n).romChar = s.romChar := rfl
@[simp] theorem finishAt_ddr (s : State) (w : Word) (n : Nat) : (finishAt s w n).ddr = s.ddr := rfl
@[simp] theorem finishAt_data (s : State) (w : Word) (n : Nat) : (finishAt s w n).data = s.data := rfl
@[simp] theorem finishAt_color (s : State) (w : Word) (n : Nat) : (finishAt s w n).color = s.color := rfl
@[simp] theorem finishAt_colorDraws (s : State) (w : Word) (n : Nat) : (finishAt s w n).colorDraws = s.colorDraws := rfl
@[simp] theorem finishAt_vic (s : State) (w : Word) (n : Nat) : (finishAt s w n).vic = s.vic := rfl
@[simp] theorem finishAt_ciaA (s : State) (w : Word) (n : Nat) : (finishAt s w n).ciaA = s.ciaA := rfl
@[simp] theorem finishAt_ciaB (s : State) (w : Word) (n : Nat) : (finishAt s w n).ciaB = s.ciaB := rfl
@[simp] theorem finishAt_keys (s : State) (w : Word) (n : Nat) : (finishAt s w n).keys = s.keys := rfl
@[simp] theorem finishAt_nmiLinePrev (s : State) (w : Word) (n : Nat) : (finishAt s w n).nmiLinePrev = s.nmiLinePrev := rfl
@[simp] theorem finishAt_frameCycles (s : State) (w : Word) (n : Nat) : (finishAt s w n).frameCycles = s.frameCycles := rfl
@[simp] theorem finishAt_paused (s : State) (w : Word) (n : Nat) : (finishAt s w n).paused = s.paused := rfl
@[simp] theorem finishAt_shutdown (s : State) (w : Word) (n : Nat) : (finishAt s w n).shutdown = s.shutdown := rfl
@[simp] theorem finishAt_halted (s : State) (w : Word) (n : Nat) : (finishAt s w n).halted = s.halted := rfl
@[simp] theorem finishAt_frameOpen (s : State) (w : Word) (n : Nat) : (finishAt s w n).frameOpen = s.frameOpen := rfl
@[simp] theorem finishAt_events (s : State) (w : Word) (n : Nat) : (finishAt s w n).events = s.events := rfl

/-! ### setRam -/

@[simp] theorem setRam_a (s : State) (b : Word) (v : Byte) : (setRam s b v).a = s.a := rfl
@[simp] theorem setRam_x (s : State) (b : Word) (v : Byte) : (setRam s b v).x = s.x := rfl
@[simp] theorem setRam_y (s : State) (b : Word) (v : Byte) : (setRam s b v).y = s.y := rfl
@[simp] theorem setRam_sp (s : State) (b : Word) (v : Byte) : (setRam s b v).sp = s.sp := rfl
@[simp] theorem setRam_pc (s : State) (b : Word) (v : Byte) : (setRam s b v).pc = s.pc := rfl
@[simp] theorem setRam_p (s : State) (b : Word) (v : Byte) : (setRam s b v).p = s.p := rfl
@[simp] theorem setRam_nmiPending (s : State) (b : Word) (v : Byte) : (setRam s b v).nmiPending = s.nmiPending := rfl
@[simp] theorem setRam_irqPending (s : State) (b : Word) (v : Byte) : (setRam s b v).irqPending = s.irqPending := rfl
@[simp] theorem setRam_cycles (s : State) (b : Word) (v : Byte) : (setRam s b v).cycles = s.cycles := rfl
@[simp] theorem setRam_fault (s : State) (b : Word) (v : Byte) : (setRam s b v).fault = s.fault := rfl
@[simp] theorem setRam_stepCycles (s : State) (b : Word) (v : Byte) : (setRam s b v).stepCycles = s.stepCycles := rfl
@[simp] theorem setRam_ram (s : State) (b : Word) (v : Byte) : (setRam s b v).ram = Memory.write Config.ramFill s.ram b.toNat v := rfl
@[simp] theorem setRam_romBasic (s : State) (b : Word) (v : Byte) : (setRam s b v).romBasic = s.romBasic := rfl
@[simp] theorem setRam_romKernal (s : State) (b : Word) (v : Byte) : (setRam s b v).romKernal = s.romKernal := rfl
@[simp] theorem setRam_romChar (s : State) (b : Word) (v : Byte) : (setRam s b v).romChar = s.romChar := rfl
@[simp] theorem setRam_ddr (s : State) (b : Word) (v : Byte) : (setRam s b v).ddr = s.ddr := rfl
@[simp] theorem setRam_data (s : State) (b : Word) (v : Byte) : (setRam s b v).data = s.data := rfl
@[simp] theorem setRam_color (s : State) (b : Word) (v : Byte) : (setRam s b v).color = s.color := rfl
@[simp] theorem setRam_colorDraws (s : State) (b : Word) (v : Byte) : (setRam s b v).colorDraws = s.colorDraws := rfl
@[simp] theorem setRam_vic (s : State) (b : Word) (v : Byte) : (setRam s b v).vic = s.vic := rfl
@[simp] theorem setRam_ciaA (s : State) (b : Word) (v : Byte) : (setRam s b v).ciaA = s.ciaA := rfl
@[simp] theorem setRam_ciaB (s : State) (b : Word) (v : Byte) : (setRam s b v).ciaB = s.ciaB := rfl
@[simp] theorem setRam_keys (s : State) (b : Word) (v : Byte) : (setRam s b v).keys = s.keys := rfl
@[simp] theorem setRam_nmiLinePrev (s : State) (b : Word) (v : Byte) : (setRam s b v).nmiLinePrev = s.nmiLinePrev := rfl
@[simp] theorem setRam_frameCycles (s : State) (b : Word) (v : Byte) : (setRam s b v).frameCycles = s.frameCycles := rfl
@[simp] theorem setRam_paused (s : State) (b : Word) (v : Byte) : (setRam s b v).paused = s.paused := rfl
@[simp] theorem setRam_shutdown (s : State) (b : Word) (v : Byte) : (setRam s b v).shutdown = s.shutdown := rfl
@[simp] theorem setRam_halted (s : State) (b : Word) (v : Byte) : (setRam s b v).halted = s.halted := rfl
@[simp] theorem setRam_frameOpen (s : State) (b : Word) (v : Byte) : (setRam s b v).frameOpen = s.frameOpen := rfl
@[simp] theorem setRam_events (s : State) (b : Word) (v : Byte) : (setRam s b v).events = s.events := rfl

/-! ### finish -/

/-- The end of a plain instruction is the end at the next instruction's address. -/
theorem finish_eq (s : State) (len n : Nat) : finish s len n = finishAt s (s.pc + BitVec.ofNat 16 len) n := rfl

@[simp] theorem finish_a (s : State) (len n : Nat) : (finish s len n).a = s.a := rfl
@[simp] theorem finish_x (s : State) (len n : Nat) : (finish s len n).x = s.x := rfl
@[simp] theorem finish_y (s : State) (len n : Nat) : (finish s len n).y = s.y := rfl
@[simp] theorem finish_sp (s : State) (len n : Nat) : (finish s len n).sp = s.sp := rfl
@[simp] theorem finish_pc (s : State) (len n : Nat) : (finish s len n).pc = s.pc + BitVec.ofNat 16 len := rfl
@[simp] theorem finish_p (s : State) (len n : Nat) : (finish s len n).p = s.p := rfl
@[simp] theorem finish_nmiPending (s : State) (len n : Nat) : (finish s len n).nmiPending = s.nmiPending := rfl
@[simp] theorem finish_irqPending (s : State) (len n : Nat) : (finish s len n).irqPending = s.irqPending := rfl
@[simp] theorem finish_cycles (s : State) (len n : Nat) : (finish s len n).cycles = s.cycles := rfl
@[simp] theorem finish_fault (s : State) (len n : Nat) : (finish s len n).fault = s.fault := rfl
@[simp] theorem finish_stepCycles (s : State) (len n : Nat) : (finish s len n).stepCycles = n := rfl
@[simp] theorem finish_ram (s : State) (len n : Nat) : (finish s len n).ram = s.ram := rfl
@[simp] theorem finish_romBasic (s : State) (len n : Nat) : (finish s len n).romBasic = s.romBasic := rfl
@[simp] theorem finish_romKernal (s : State) (len n : Nat) : (finish s len n).romKernal = s.romKernal := rfl
@[simp] theorem finish_romChar (s : State) (len n : Nat) : (finish s len n).romChar = s.romChar := rfl
@[simp] theorem finish_ddr (s : State) (len n : Nat) : (finish s len n).ddr = s.ddr := rfl
@[simp] theorem finish_data (s : State) (len n : Nat) : (finish s len n).data = s.data := rfl
@[simp] theorem finish_color (s : State) (len n : Nat) : (finish s len n).color = s.color := rfl
@[simp] theorem finish_colorDraws (s : State) (len n : Nat) : (finish s len n).colorDraws = s.colorDraws := rfl
@[simp] theorem finish_vic (s : State) (len n : Nat) : (finish s len n).vic = s.vic := rfl
@[simp] theorem finish_ciaA (s : State) (len n : Nat) : (finish s len n).ciaA = s.ciaA := rfl
@[simp] theorem finish_ciaB (s : State) (len n : Nat) : (finish s len n).ciaB = s.ciaB := rfl
@[simp] theorem finish_keys (s : State) (len n : Nat) : (finish s len n).keys = s.keys := rfl
@[simp] theorem finish_nmiLinePrev (s : State) (len n : Nat) : (finish s len n).nmiLinePrev = s.nmiLinePrev := rfl
@[simp] theorem finish_frameCycles (s : State) (len n : Nat) : (finish s len n).frameCycles = s.frameCycles := rfl
@[simp] theorem finish_paused (s : State) (len n : Nat) : (finish s len n).paused = s.paused := rfl
@[simp] theorem finish_shutdown (s : State) (len n : Nat) : (finish s len n).shutdown = s.shutdown := rfl
@[simp] theorem finish_halted (s : State) (len n : Nat) : (finish s len n).halted = s.halted := rfl
@[simp] theorem finish_frameOpen (s : State) (len n : Nat) : (finish s len n).frameOpen = s.frameOpen := rfl
@[simp] theorem finish_events (s : State) (len n : Nat) : (finish s len n).events = s.events := rfl

/-! ### setNZ -/

@[simp] theorem setNZ_n (v : Byte) (f : Flags) : (setNZ v f).n = v.getLsbD 7 := rfl
@[simp] theorem setNZ_v (v : Byte) (f : Flags) : (setNZ v f).v = f.v := rfl
@[simp] theorem setNZ_d (v : Byte) (f : Flags) : (setNZ v f).d = f.d := rfl
@[simp] theorem setNZ_i (v : Byte) (f : Flags) : (setNZ v f).i = f.i := rfl
@[simp] theorem setNZ_z (v : Byte) (f : Flags) : (setNZ v f).z = decide (v = 0) := rfl
@[simp] theorem setNZ_c (v : Byte) (f : Flags) : (setNZ v f).c = f.c := rfl

end Sys2Proof.Machine
end

