-- ==== Sys2Proof/Laws/Bus.lean ====
section
/-! SUPPORT. What a bus read, a bus write and the stack operations can do, said once: which fields they leave alone, where the
bytes go, and that the memories keep their canonical form. -/

namespace Sys2Proof.Machine

/-! ### The chips' register files -/

/-- A VIC-II write changes the register file and the latch only (R158). -/
theorem vicWrite_frame (v : Vic) (i : BitVec 6) (b : Byte) :
    vicWrite v i b = { v with vreg := (vicWrite v i b).vreg, latch := (vicWrite v i b).latch } := by
  unfold vicWrite
  split
  · split <;> rfl
  · rfl

@[simp] theorem vicWrite_raster (v : Vic) (i : BitVec 6) (b : Byte) : (vicWrite v i b).raster = v.raster := by
  rw [vicWrite_frame]

@[simp] theorem vicWrite_acc (v : Vic) (i : BitVec 6) (b : Byte) : (vicWrite v i b).acc = v.acc := by
  rw [vicWrite_frame]

@[simp] theorem vicWrite_frameAvailable (v : Vic) (i : BitVec 6) (b : Byte) :
    (vicWrite v i b).frameAvailable = v.frameAvailable := by rw [vicWrite_frame]

/-- A VIC-II write sets no latch bit (R158, R159). -/
theorem vicWrite_latch (v : Vic) (i : BitVec 6) (b : Byte) :
    ∃ m : BitVec 4, (vicWrite v i b).latch = v.latch &&& m := by
  unfold vicWrite
  split
  · split
    · exact ⟨_, rfl⟩
    · exact ⟨15#4, (BitVec.and_allOnes (x := v.latch)).symm⟩
  · exact ⟨15#4, (BitVec.and_allOnes (x := v.latch)).symm⟩

/-- A CIA read changes the interrupt latch at most (R170, R179). -/
theorem ciaRead_frame (p : Byte) (c : Cia) (i : BitVec 4) :
    (ciaRead p c i).2 = { c with icrLatch := (ciaRead p c i).2.icrLatch } := by
  unfold ciaRead
  split <;> rfl

/-- A CIA read leaves the latch or clears it; it clears it at register 13 only (R179). -/
theorem ciaRead_state (p : Byte) (c : Cia) (i : BitVec 4) :
    (ciaRead p c i).2 = if i = 13 then { c with icrLatch := 0 } else c := by
  by_cases h : i = 13
  · subst h
    rfl
  · rw [if_neg h]
    unfold ciaRead
    split <;> try rfl
    rename_i hi
    exact absurd (BitVec.eq_of_toNat_eq hi) h

/-- A CIA write sets no interrupt latch bit (R171, R180). -/
@[simp] theorem ciaWrite_icrLatch (c : Cia) (i : BitVec 4) (v : Byte) : (ciaWrite c i v).icrLatch = c.icrLatch := by
  unfold ciaWrite
  split <;> rfl

/-! ### The bus read -/

/-- A bus read changes the CIAs' interrupt latches and the color draw counter at most (R49). -/
theorem memRead_frame (s : State) (a : Word) :
    (memRead s a).2 = { s with
      colorDraws := (memRead s a).2.colorDraws, ciaA := (memRead s a).2.ciaA, ciaB := (memRead s a).2.ciaB } := by
  unfold memRead
  split <;> try rfl
  unfold ioRead
  split <;> rfl

/-- A bus read outside the IO window changes nothing (R49). -/
theorem memRead_pure {s : State} {a : Word} (h : readSource s a ≠ .io) : (memRead s a).2 = s := by
  unfold memRead
  split <;> first | rfl | contradiction

/-- What a read outside IO gives does not depend on the CPU's registers, the chips or the loop: only on the port, the
memories and the address. -/
theorem memRead_ciaA (s : State) (a : Word) :
    (memRead s a).2.ciaA = { s.ciaA with icrLatch := (memRead s a).2.ciaA.icrLatch } := by
  unfold memRead
  split <;> try rfl
  unfold ioRead
  split <;> try rfl
  exact ciaRead_frame ..

theorem memRead_ciaB (s : State) (a : Word) :
    (memRead s a).2.ciaB = { s.ciaB with icrLatch := (memRead s a).2.ciaB.icrLatch } := by
  unfold memRead
  split <;> try rfl
  unfold ioRead
  split <;> try rfl
  exact ciaRead_frame ..

@[simp] theorem memRead_a (s : State) (a : Word) : (memRead s a).2.a = s.a := by rw [memRead_frame]
@[simp] theorem memRead_x (s : State) (a : Word) : (memRead s a).2.x = s.x := by rw [memRead_frame]
@[simp] theorem memRead_y (s : State) (a : Word) : (memRead s a).2.y = s.y := by rw [memRead_frame]
@[simp] theorem memRead_sp (s : State) (a : Word) : (memRead s a).2.sp = s.sp := by rw [memRead_frame]
@[simp] theorem memRead_pc (s : State) (a : Word) : (memRead s a).2.pc = s.pc := by rw [memRead_frame]
@[simp] theorem memRead_p (s : State) (a : Word) : (memRead s a).2.p = s.p := by rw [memRead_frame]
@[simp] theorem memRead_nmiPending (s : State) (a : Word) : (memRead s a).2.nmiPending = s.nmiPending := by rw [memRead_frame]
@[simp] theorem memRead_irqPending (s : State) (a : Word) : (memRead s a).2.irqPending = s.irqPending := by rw [memRead_frame]
@[simp] theorem memRead_cycles (s : State) (a : Word) : (memRead s a).2.cycles = s.cycles := by rw [memRead_frame]
@[simp] theorem memRead_fault (s : State) (a : Word) : (memRead s a).2.fault = s.fault := by rw [memRead_frame]
@[simp] theorem memRead_stepCycles (s : State) (a : Word) : (memRead s a).2.stepCycles = s.stepCycles := by rw [memRead_frame]
@[simp] theorem memRead_ram (s : State) (a : Word) : (memRead s a).2.ram = s.ram := by rw [memRead_frame]
@[simp] theorem memRead_romBasic (s : State) (a : Word) : (memRead s a).2.romBasic = s.romBasic := by rw [memRead_frame]
@[simp] theorem memRead_romKernal (s : State) (a : Word) : (memRead s a).2.romKernal = s.romKernal := by rw [memRead_frame]
@[simp] theorem memRead_romChar (s : State) (a : Word) : (memRead s a).2.romChar = s.romChar := by rw [memRead_frame]
@[simp] theorem memRead_ddr (s : State) (a : Word) : (memRead s a).2.ddr = s.ddr := by rw [memRead_frame]
@[simp] theorem memRead_data (s : State) (a : Word) : (memRead s a).2.data = s.data := by rw [memRead_frame]
@[simp] theorem memRead_color (s : State) (a : Word) : (memRead s a).2.color = s.color := by rw [memRead_frame]
@[simp] theorem memRead_vic (s : State) (a : Word) : (memRead s a).2.vic = s.vic := by rw [memRead_frame]
@[simp] theorem memRead_keys (s : State) (a : Word) : (memRead s a).2.keys = s.keys := by rw [memRead_frame]
@[simp] theorem memRead_nmiLinePrev (s : State) (a : Word) : (memRead s a).2.nmiLinePrev = s.nmiLinePrev := by rw [memRead_frame]
@[simp] theorem memRead_frameCycles (s : State) (a : Word) : (memRead s a).2.frameCycles = s.frameCycles := by rw [memRead_frame]
@[simp] theorem memRead_paused (s : State) (a : Word) : (memRead s a).2.paused = s.paused := by rw [memRead_frame]
@[simp] theorem memRead_shutdown (s : State) (a : Word) : (memRead s a).2.shutdown = s.shutdown := by rw [memRead_frame]
@[simp] theorem memRead_halted (s : State) (a : Word) : (memRead s a).2.halted = s.halted := by rw [memRead_frame]
@[simp] theorem memRead_frameOpen (s : State) (a : Word) : (memRead s a).2.frameOpen = s.frameOpen := by rw [memRead_frame]
@[simp] theorem memRead_events (s : State) (a : Word) : (memRead s a).2.events = s.events := by rw [memRead_frame]

@[simp] theorem memRead_ramByte (s : State) (a b : Word) : ramByte (memRead s a).2 b = ramByte s b := by
  simp [ramByte]

/-! ### The bus write -/

/-- A bus write changes RAM, the port, the color RAM, the VIC-II and the CIAs at most (R42). -/
theorem memWrite_frame (s : State) (a : Word) (v : Byte) :
    memWrite s a v = { s with
      ram := (memWrite s a v).ram, ddr := (memWrite s a v).ddr, data := (memWrite s a v).data
      color := (memWrite s a v).color, vic := (memWrite s a v).vic
      ciaA := (memWrite s a v).ciaA, ciaB := (memWrite s a v).ciaB } := by
  unfold memWrite
  split
  · unfold portWrite
    split <;> rfl
  · unfold ioWrite
    split <;> rfl
  all_goals rfl

@[simp] theorem memWrite_a (s : State) (a : Word) (v : Byte) : (memWrite s a v).a = s.a := by rw [memWrite_frame]
@[simp] theorem memWrite_x (s : State) (a : Word) (v : Byte) : (memWrite s a v).x = s.x := by rw [memWrite_frame]
@[simp] theorem memWrite_y (s : State) (a : Word) (v : Byte) : (memWrite s a v).y = s.y := by rw [memWrite_frame]
@[simp] theorem memWrite_sp (s : State) (a : Word) (v : Byte) : (memWrite s a v).sp = s.sp := by rw [memWrite_frame]
@[simp] theorem memWrite_pc (s : State) (a : Word) (v : Byte) : (memWrite s a v).pc = s.pc := by rw [memWrite_frame]
@[simp] theorem memWrite_p (s : State) (a : Word) (v : Byte) : (memWrite s a v).p = s.p := by rw [memWrite_frame]
@[simp] theorem memWrite_nmiPending (s : State) (a : Word) (v : Byte) : (memWrite s a v).nmiPending = s.nmiPending := by rw [memWrite_frame]
@[simp] theorem memWrite_irqPending (s : State) (a : Word) (v : Byte) : (memWrite s a v).irqPending = s.irqPending := by rw [memWrite_frame]
@[simp] theorem memWrite_cycles (s : State) (a : Word) (v : Byte) : (memWrite s a v).cycles = s.cycles := by rw [memWrite_frame]
@[simp] theorem memWrite_fault (s : State) (a : Word) (v : Byte) : (memWrite s a v).fault = s.fault := by rw [memWrite_frame]
@[simp] theorem memWrite_stepCycles (s : State) (a : Word) (v : Byte) : (memWrite s a v).stepCycles = s.stepCycles := by rw [memWrite_frame]
@[simp] theorem memWrite_romBasic (s : State) (a : Word) (v : Byte) : (memWrite s a v).romBasic = s.romBasic := by rw [memWrite_frame]
@[simp] theorem memWrite_romKernal (s : State) (a : Word) (v : Byte) : (memWrite s a v).romKernal = s.romKernal := by rw [memWrite_frame]
@[simp] theorem memWrite_romChar (s : State) (a : Word) (v : Byte) : (memWrite s a v).romChar = s.romChar := by rw [memWrite_frame]
@[simp] theorem memWrite_colorDraws (s : State) (a : Word) (v : Byte) : (memWrite s a v).colorDraws = s.colorDraws := by rw [memWrite_frame]
@[simp] theorem memWrite_keys (s : State) (a : Word) (v : Byte) : (memWrite s a v).keys = s.keys := by rw [memWrite_frame]
@[simp] theorem memWrite_nmiLinePrev (s : State) (a : Word) (v : Byte) : (memWrite s a v).nmiLinePrev = s.nmiLinePrev := by rw [memWrite_frame]
@[simp] theorem memWrite_frameCycles (s : State) (a : Word) (v : Byte) : (memWrite s a v).frameCycles = s.frameCycles := by rw [memWrite_frame]
@[simp] theorem memWrite_paused (s : State) (a : Word) (v : Byte) : (memWrite s a v).paused = s.paused := by rw [memWrite_frame]
@[simp] theorem memWrite_shutdown (s : State) (a : Word) (v : Byte) : (memWrite s a v).shutdown = s.shutdown := by rw [memWrite_frame]
@[simp] theorem memWrite_halted (s : State) (a : Word) (v : Byte) : (memWrite s a v).halted = s.halted := by rw [memWrite_frame]
@[simp] theorem memWrite_frameOpen (s : State) (a : Word) (v : Byte) : (memWrite s a v).frameOpen = s.frameOpen := by rw [memWrite_frame]
@[simp] theorem memWrite_events (s : State) (a : Word) (v : Byte) : (memWrite s a v).events = s.events := by rw [memWrite_frame]

/-- Storing into RAM changes RAM only. -/
theorem setRam_frame (s : State) (a : Word) (v : Byte) : setRam s a v = { s with ram := (setRam s a v).ram } := rfl

@[simp] theorem ramByte_setRam_same (s : State) (a : Word) (v : Byte) : ramByte (setRam s a v) a = v := by
  simp [ramByte, setRam]

theorem ramByte_setRam_other {s : State} {a b : Word} (v : Byte) (h : b ≠ a) : ramByte (setRam s a v) b = ramByte s b := by
  have hn : b.toNat ≠ a.toNat := fun e => h (BitVec.eq_of_toNat_eq e)
  simp [ramByte, setRam, Memory.read_write_other _ _ _ hn]

/-- A write outside the port and IO is a RAM store (R42). -/
theorem memWrite_ram_region {s : State} {a : Word} (v : Byte) (hp : readSource s a ≠ .port) (hi : readSource s a ≠ .io) :
    memWrite s a v = setRam s a v := by
  unfold memWrite
  split <;> first | rfl | contradiction

/-- A write to a mapped IO address is the device's write (R42, R45). -/
theorem memWrite_io_region {s : State} {a : Word} (v : Byte) (h : readSource s a = .io) :
    memWrite s a v = ioWrite s a v := by simp [memWrite, h]

/-- A write outside IO stores the byte in RAM (R38, R42). -/
theorem memWrite_ram_of_not_io {s : State} {a : Word} (v : Byte) (h : readSource s a ≠ .io) :
    (memWrite s a v).ram = Memory.write Config.ramFill s.ram a.toNat v := by
  unfold memWrite
  split
  · unfold portWrite
    split <;> rfl
  · contradiction
  all_goals rfl

/-- A write to a mapped IO address leaves RAM alone (R42). -/
theorem memWrite_ram_of_io {s : State} {a : Word} (v : Byte) (h : readSource s a = .io) : (memWrite s a v).ram = s.ram := by
  rw [memWrite_io_region v h]
  unfold ioWrite
  split <;> rfl

/-- The byte written reads back from RAM unless the write went to an IO device. -/
theorem ramByte_memWrite_same {s : State} {a : Word} (v : Byte) (h : readSource s a ≠ .io) :
    ramByte (memWrite s a v) a = v := by
  simp [ramByte, memWrite_ram_of_not_io v h]

/-- A bus write leaves every other RAM byte alone. -/
theorem ramByte_memWrite_other {s : State} {a b : Word} (v : Byte) (h : b ≠ a) :
    ramByte (memWrite s a v) b = ramByte s b := by
  have hn : b.toNat ≠ a.toNat := fun e => h (BitVec.eq_of_toNat_eq e)
  by_cases hi : readSource s a = .io
  · simp [ramByte, memWrite_ram_of_io v hi]
  · simp [ramByte, memWrite_ram_of_not_io v hi, Memory.read_write_other _ _ _ hn]

/-! ### The canonical form -/

/-- Reading keeps the canonical form of every memory. -/
@[simp] theorem memoriesWf_memRead (s : State) (a : Word) : memoriesWf (memRead s a).2 = memoriesWf s := by
  simp [memoriesWf]

/-- A RAM store keeps the canonical form. -/
theorem memoriesWf_setRam {s : State} (a : Word) (v : Byte) (h : memoriesWf s = true) :
    memoriesWf (setRam s a v) = true := by
  simp only [memoriesWf, setRam, Bool.and_eq_true] at h ⊢
  exact ⟨⟨⟨⟨Memory.wf_write v h.1.1.1.1 a.isLt, h.1.1.1.2⟩, h.1.1.2⟩, h.1.2⟩, h.2⟩

/-- A bus write keeps the canonical form. -/
theorem memoriesWf_memWrite {s : State} (a : Word) (v : Byte) (h : memoriesWf s = true) :
    memoriesWf (memWrite s a v) = true := by
  unfold memWrite
  split
  · unfold portWrite
    split
    · exact memoriesWf_setRam (s := { s with ddr := v }) a v h
    · exact memoriesWf_setRam (s := { s with data := v }) a v h
  · unfold ioWrite
    split <;> try exact h
    simp only [memoriesWf, Bool.and_eq_true] at h ⊢
    exact ⟨h.1, Memory.wf_write _ h.2 (a.extractLsb' 0 10).isLt⟩
  all_goals exact memoriesWf_setRam a v h

/-! ### Where each source lies -/

/-- BASIC ROM is read in its window only (R40). -/
theorem readSource_basic {s : State} {a : Word} (h : readSource s a = .basic) : 0xA000 ≤ a.toNat ∧ a.toNat ≤ 0xBFFF := by
  revert h
  unfold readSource
  repeat' split
  all_goals simp_all

/-- KERNAL ROM is read in its window only (R40). -/
theorem readSource_kernal {s : State} {a : Word} (h : readSource s a = .kernal) : 0xE000 ≤ a.toNat := by
  revert h
  unfold readSource
  repeat' split
  all_goals simp_all

/-- CHAR ROM is read in its window only (R40). -/
theorem readSource_charRom {s : State} {a : Word} (h : readSource s a = .charRom) :
    0xD000 ≤ a.toNat ∧ a.toNat ≤ 0xDFFF := by
  revert h
  unfold readSource
  repeat' split
  all_goals simp_all

/-- IO is reached in its window only (R40). -/
theorem readSource_io {s : State} {a : Word} (h : readSource s a = .io) : 0xD000 ≤ a.toNat ∧ a.toNat ≤ 0xDFFF := by
  revert h
  unfold readSource
  repeat' split
  all_goals simp_all

/-- Placing a byte of a program keeps the canonical form. -/
theorem memoriesWf_placeByte {s t : State} {a : Word} {v : Byte} (h : memoriesWf s = true)
    (hp : placeByte s a v = some t) : memoriesWf t = true := by
  unfold placeByte at hp
  have ha := a.isLt
  split at hp <;> simp only [Option.some.injEq, reduceCtorEq] at hp <;> subst hp
  · exact memoriesWf_setRam a v h
  all_goals
    rename_i hs
    simp only [memoriesWf, Bool.and_eq_true] at h ⊢
  · have := readSource_basic hs
    exact ⟨⟨⟨⟨h.1.1.1.1, Memory.wf_write v h.1.1.1.2 (by omega)⟩, h.1.1.2⟩, h.1.2⟩, h.2⟩
  · have := readSource_kernal hs
    exact ⟨⟨⟨h.1.1.1, Memory.wf_write v h.1.1.2 (by omega)⟩, h.1.2⟩, h.2⟩
  · have := readSource_charRom hs
    exact ⟨⟨h.1.1, Memory.wf_write v h.1.2 (by omega)⟩, h.2⟩

/-! ### The stack -/

/-- The stack page, by address (R19). -/
@[simp] theorem stackAddr_toNat (sp : Byte) : (stackAddr sp).toNat = 256 + sp.toNat := by
  have := sp.isLt
  simp only [stackAddr, mkWord, BitVec.toNat_append]
  rw [← Nat.shiftLeft_add_eq_or_of_lt this]
  simp [Nat.shiftLeft_eq]

theorem stackAddr_inj {p q : Byte} : stackAddr p = stackAddr q ↔ p = q := by
  constructor
  · intro h
    have := congrArg BitVec.toNat h
    simp only [stackAddr_toNat] at this
    exact BitVec.eq_of_toNat_eq (by omega)
  · rintro rfl
    rfl

/-- The stack page is RAM in every configuration (R40). -/
@[simp] theorem readSource_stack (s : State) (sp : Byte) : readSource s (stackAddr sp) = .ram := by
  have h := sp.isLt
  have hn := stackAddr_toNat sp
  unfold readSource
  rw [if_neg (by omega), if_neg (by omega), if_neg (by omega), if_neg (by omega)]

/-- A stack write is a RAM store. -/
@[simp] theorem memWrite_stack (s : State) (sp v : Byte) : memWrite s (stackAddr sp) v = setRam s (stackAddr sp) v :=
  memWrite_ram_region v (by simp) (by simp)

/-- A stack read is a RAM read and changes nothing. -/
@[simp] theorem memRead_stack (s : State) (sp : Byte) : memRead s (stackAddr sp) = (ramByte s (stackAddr sp), s) := by
  simp [memRead]

/-- `Push(v)` in full (R19). -/
theorem push_eq (s : State) (v : Byte) :
    push s v = { s with sp := s.sp - 1, ram := Memory.write Config.ramFill s.ram (stackAddr s.sp).toNat v } := by
  simp [push, setSp, setRam]

/-- `Pull()` in full (R20). -/
theorem pull_eq (s : State) : pull s = (ramByte s (stackAddr (s.sp + 1)), { s with sp := s.sp + 1 }) := by
  simp [pull, setSp, ramByte]

/-- Pushing keeps the canonical form. -/
theorem memoriesWf_push {s : State} (v : Byte) (h : memoriesWf s = true) : memoriesWf (push s v) = true := by
  unfold push
  exact memoriesWf_memWrite _ _ h

/-- Pushing a word in full. -/
theorem pushWord_eq (s : State) (w : Word) :
    pushWord s w = { s with
      sp := s.sp - 2
      ram := Memory.write Config.ramFill
        (Memory.write Config.ramFill s.ram (stackAddr s.sp).toNat (hiByte w)) (stackAddr (s.sp - 1)).toNat (loByte w) } := by
  have h : s.sp - 1 - 1 = s.sp - 2 := by bv_omega
  simp only [pushWord, push_eq, h]

/-- Pulling a word in full. -/
theorem pullWord_eq (s : State) :
    pullWord s = (mkWord (ramByte s (stackAddr (s.sp + 1))) (ramByte s (stackAddr (s.sp + 2))), { s with sp := s.sp + 2 }) := by
  have h : s.sp + 1 + 1 = s.sp + 2 := by bv_omega
  simp only [pullWord, pull_eq, h, ramByte]

/-! ### The vectors -/

/-- The vectors lie in KERNAL ROM or RAM, so reading them changes nothing (R41, R50). -/
theorem readSource_high {s : State} {a : Word} (h : 0xE000 ≤ a.toNat) :
    readSource s a = if hiram s then .kernal else .ram := by
  have := a.isLt
  unfold readSource
  rw [if_neg (by omega), if_neg (by omega)]
  by_cases hr : hiram s = true
  · simp [hr, h]
  · rw [if_neg (by simp [hr]), if_neg (by omega)]
    simp [hr]

/-- A word read from $E000 up, in full. -/
theorem read16_high {s : State} {a : Word} (h : 0xE000 ≤ a.toNat) (h1 : 0xE000 ≤ (a + 1).toNat) :
    read16 s a = (mkWord (memRead s a).1 (memRead s (a + 1)).1, s) := by
  have p : (memRead s a).2 = s := memRead_pure (by rw [readSource_high h]; split <;> simp)
  have q : (memRead s (a + 1)).2 = s := memRead_pure (by rw [readSource_high h1]; split <;> simp)
  simp only [read16, p, q]

end Sys2Proof.Machine
end

