-- ==== Sys2Proof/Laws/PerInstr.lean ====
section
/-! SUPPORT. One lemma per constructor of `Instr` about its encoding as syntax. -/

/-- The encoding of `i` starts with an opcode of the map whose shape has the length of the encoding, 1 to 3 bytes (R57,
R58). -/
def Sys2Proof.Laws.EncodeShape.Statement (i : Sys2Proof.Instr) : Prop :=
  ∃ op rest sh, Sys2Proof.encode i = op :: rest ∧ Sys2Proof.lookupShape op = some sh ∧
    sh.length = (Sys2Proof.encode i).length ∧ (Sys2Proof.encode i).length ≤ 3

namespace Sys2Proof.Laws.EncodeShape

theorem ldaImm (b : Byte) : Statement (.ldaImm b) := ⟨_, _, _, rfl, rfl, rfl, by simp [encode]⟩
theorem ldaZp (b : Byte) : Statement (.ldaZp b) := ⟨_, _, _, rfl, rfl, rfl, by simp [encode]⟩
theorem ldaZpX (b : Byte) : Statement (.ldaZpX b) := ⟨_, _, _, rfl, rfl, rfl, by simp [encode]⟩
theorem ldaAbs (w : Word) : Statement (.ldaAbs w) := ⟨_, _, _, rfl, rfl, rfl, by simp [encode, bytes3]⟩
theorem ldaAbsX (w : Word) : Statement (.ldaAbsX w) := ⟨_, _, _, rfl, rfl, rfl, by simp [encode, bytes3]⟩
theorem ldaAbsY (w : Word) : Statement (.ldaAbsY w) := ⟨_, _, _, rfl, rfl, rfl, by simp [encode, bytes3]⟩
theorem ldaIndX (b : Byte) : Statement (.ldaIndX b) := ⟨_, _, _, rfl, rfl, rfl, by simp [encode]⟩
theorem ldaIndY (b : Byte) : Statement (.ldaIndY b) := ⟨_, _, _, rfl, rfl, rfl, by simp [encode]⟩
theorem ldxImm (b : Byte) : Statement (.ldxImm b) := ⟨_, _, _, rfl, rfl, rfl, by simp [encode]⟩
theorem ldxZp (b : Byte) : Statement (.ldxZp b) := ⟨_, _, _, rfl, rfl, rfl, by simp [encode]⟩
theorem ldxZpY (b : Byte) : Statement (.ldxZpY b) := ⟨_, _, _, rfl, rfl, rfl, by simp [encode]⟩
theorem ldxAbs (w : Word) : Statement (.ldxAbs w) := ⟨_, _, _, rfl, rfl, rfl, by simp [encode, bytes3]⟩
theorem ldxAbsY (w : Word) : Statement (.ldxAbsY w) := ⟨_, _, _, rfl, rfl, rfl, by simp [encode, bytes3]⟩
theorem ldyImm (b : Byte) : Statement (.ldyImm b) := ⟨_, _, _, rfl, rfl, rfl, by simp [encode]⟩
theorem ldyZp (b : Byte) : Statement (.ldyZp b) := ⟨_, _, _, rfl, rfl, rfl, by simp [encode]⟩
theorem ldyZpX (b : Byte) : Statement (.ldyZpX b) := ⟨_, _, _, rfl, rfl, rfl, by simp [encode]⟩
theorem ldyAbs (w : Word) : Statement (.ldyAbs w) := ⟨_, _, _, rfl, rfl, rfl, by simp [encode, bytes3]⟩
theorem ldyAbsX (w : Word) : Statement (.ldyAbsX w) := ⟨_, _, _, rfl, rfl, rfl, by simp [encode, bytes3]⟩
theorem staZp (b : Byte) : Statement (.staZp b) := ⟨_, _, _, rfl, rfl, rfl, by simp [encode]⟩
theorem staZpX (b : Byte) : Statement (.staZpX b) := ⟨_, _, _, rfl, rfl, rfl, by simp [encode]⟩
theorem staAbs (w : Word) : Statement (.staAbs w) := ⟨_, _, _, rfl, rfl, rfl, by simp [encode, bytes3]⟩
theorem staAbsX (w : Word) : Statement (.staAbsX w) := ⟨_, _, _, rfl, rfl, rfl, by simp [encode, bytes3]⟩
theorem staAbsY (w : Word) : Statement (.staAbsY w) := ⟨_, _, _, rfl, rfl, rfl, by simp [encode, bytes3]⟩
theorem staIndX (b : Byte) : Statement (.staIndX b) := ⟨_, _, _, rfl, rfl, rfl, by simp [encode]⟩
theorem staIndY (b : Byte) : Statement (.staIndY b) := ⟨_, _, _, rfl, rfl, rfl, by simp [encode]⟩
theorem stxZp (b : Byte) : Statement (.stxZp b) := ⟨_, _, _, rfl, rfl, rfl, by simp [encode]⟩
theorem stxZpY (b : Byte) : Statement (.stxZpY b) := ⟨_, _, _, rfl, rfl, rfl, by simp [encode]⟩
theorem stxAbs (w : Word) : Statement (.stxAbs w) := ⟨_, _, _, rfl, rfl, rfl, by simp [encode, bytes3]⟩
theorem styZp (b : Byte) : Statement (.styZp b) := ⟨_, _, _, rfl, rfl, rfl, by simp [encode]⟩
theorem styZpX (b : Byte) : Statement (.styZpX b) := ⟨_, _, _, rfl, rfl, rfl, by simp [encode]⟩
theorem styAbs (w : Word) : Statement (.styAbs w) := ⟨_, _, _, rfl, rfl, rfl, by simp [encode, bytes3]⟩
theorem tax : Statement .tax := ⟨_, _, _, rfl, rfl, rfl, by decide⟩
theorem tay : Statement .tay := ⟨_, _, _, rfl, rfl, rfl, by decide⟩
theorem txa : Statement .txa := ⟨_, _, _, rfl, rfl, rfl, by decide⟩
theorem tya : Statement .tya := ⟨_, _, _, rfl, rfl, rfl, by decide⟩
theorem tsx : Statement .tsx := ⟨_, _, _, rfl, rfl, rfl, by decide⟩
theorem txs : Statement .txs := ⟨_, _, _, rfl, rfl, rfl, by decide⟩
theorem pha : Statement .pha := ⟨_, _, _, rfl, rfl, rfl, by decide⟩
theorem php : Statement .php := ⟨_, _, _, rfl, rfl, rfl, by decide⟩
theorem pla : Statement .pla := ⟨_, _, _, rfl, rfl, rfl, by decide⟩
theorem plp : Statement .plp := ⟨_, _, _, rfl, rfl, rfl, by decide⟩
theorem adcImm (b : Byte) : Statement (.adcImm b) := ⟨_, _, _, rfl, rfl, rfl, by simp [encode]⟩
theorem adcZp (b : Byte) : Statement (.adcZp b) := ⟨_, _, _, rfl, rfl, rfl, by simp [encode]⟩
theorem adcZpX (b : Byte) : Statement (.adcZpX b) := ⟨_, _, _, rfl, rfl, rfl, by simp [encode]⟩
theorem adcAbs (w : Word) : Statement (.adcAbs w) := ⟨_, _, _, rfl, rfl, rfl, by simp [encode, bytes3]⟩
theorem adcAbsX (w : Word) : Statement (.adcAbsX w) := ⟨_, _, _, rfl, rfl, rfl, by simp [encode, bytes3]⟩
theorem adcAbsY (w : Word) : Statement (.adcAbsY w) := ⟨_, _, _, rfl, rfl, rfl, by simp [encode, bytes3]⟩
theorem adcIndX (b : Byte) : Statement (.adcIndX b) := ⟨_, _, _, rfl, rfl, rfl, by simp [encode]⟩
theorem adcIndY (b : Byte) : Statement (.adcIndY b) := ⟨_, _, _, rfl, rfl, rfl, by simp [encode]⟩
theorem sbcImm (b : Byte) : Statement (.sbcImm b) := ⟨_, _, _, rfl, rfl, rfl, by simp [encode]⟩
theorem sbcZp (b : Byte) : Statement (.sbcZp b) := ⟨_, _, _, rfl, rfl, rfl, by simp [encode]⟩
theorem sbcZpX (b : Byte) : Statement (.sbcZpX b) := ⟨_, _, _, rfl, rfl, rfl, by simp [encode]⟩
theorem sbcAbs (w : Word) : Statement (.sbcAbs w) := ⟨_, _, _, rfl, rfl, rfl, by simp [encode, bytes3]⟩
theorem sbcAbsX (w : Word) : Statement (.sbcAbsX w) := ⟨_, _, _, rfl, rfl, rfl, by simp [encode, bytes3]⟩
theorem sbcAbsY (w : Word) : Statement (.sbcAbsY w) := ⟨_, _, _, rfl, rfl, rfl, by simp [encode, bytes3]⟩
theorem sbcIndX (b : Byte) : Statement (.sbcIndX b) := ⟨_, _, _, rfl, rfl, rfl, by simp [encode]⟩
theorem sbcIndY (b : Byte) : Statement (.sbcIndY b) := ⟨_, _, _, rfl, rfl, rfl, by simp [encode]⟩
theorem cmpImm (b : Byte) : Statement (.cmpImm b) := ⟨_, _, _, rfl, rfl, rfl, by simp [encode]⟩
theorem cmpZp (b : Byte) : Statement (.cmpZp b) := ⟨_, _, _, rfl, rfl, rfl, by simp [encode]⟩
theorem cmpZpX (b : Byte) : Statement (.cmpZpX b) := ⟨_, _, _, rfl, rfl, rfl, by simp [encode]⟩
theorem cmpAbs (w : Word) : Statement (.cmpAbs w) := ⟨_, _, _, rfl, rfl, rfl, by simp [encode, bytes3]⟩
theorem cmpAbsX (w : Word) : Statement (.cmpAbsX w) := ⟨_, _, _, rfl, rfl, rfl, by simp [encode, bytes3]⟩
theorem cmpAbsY (w : Word) : Statement (.cmpAbsY w) := ⟨_, _, _, rfl, rfl, rfl, by simp [encode, bytes3]⟩
theorem cmpIndX (b : Byte) : Statement (.cmpIndX b) := ⟨_, _, _, rfl, rfl, rfl, by simp [encode]⟩
theorem cmpIndY (b : Byte) : Statement (.cmpIndY b) := ⟨_, _, _, rfl, rfl, rfl, by simp [encode]⟩
theorem cpxImm (b : Byte) : Statement (.cpxImm b) := ⟨_, _, _, rfl, rfl, rfl, by simp [encode]⟩
theorem cpxZp (b : Byte) : Statement (.cpxZp b) := ⟨_, _, _, rfl, rfl, rfl, by simp [encode]⟩
theorem cpxAbs (w : Word) : Statement (.cpxAbs w) := ⟨_, _, _, rfl, rfl, rfl, by simp [encode, bytes3]⟩
theorem cpyImm (b : Byte) : Statement (.cpyImm b) := ⟨_, _, _, rfl, rfl, rfl, by simp [encode]⟩
theorem cpyZp (b : Byte) : Statement (.cpyZp b) := ⟨_, _, _, rfl, rfl, rfl, by simp [encode]⟩
theorem cpyAbs (w : Word) : Statement (.cpyAbs w) := ⟨_, _, _, rfl, rfl, rfl, by simp [encode, bytes3]⟩
theorem incZp (b : Byte) : Statement (.incZp b) := ⟨_, _, _, rfl, rfl, rfl, by simp [encode]⟩
theorem incZpX (b : Byte) : Statement (.incZpX b) := ⟨_, _, _, rfl, rfl, rfl, by simp [encode]⟩
theorem incAbs (w : Word) : Statement (.incAbs w) := ⟨_, _, _, rfl, rfl, rfl, by simp [encode, bytes3]⟩
theorem incAbsX (w : Word) : Statement (.incAbsX w) := ⟨_, _, _, rfl, rfl, rfl, by simp [encode, bytes3]⟩
theorem decZp (b : Byte) : Statement (.decZp b) := ⟨_, _, _, rfl, rfl, rfl, by simp [encode]⟩
theorem decZpX (b : Byte) : Statement (.decZpX b) := ⟨_, _, _, rfl, rfl, rfl, by simp [encode]⟩
theorem decAbs (w : Word) : Statement (.decAbs w) := ⟨_, _, _, rfl, rfl, rfl, by simp [encode, bytes3]⟩
theorem decAbsX (w : Word) : Statement (.decAbsX w) := ⟨_, _, _, rfl, rfl, rfl, by simp [encode, bytes3]⟩
theorem inx : Statement .inx := ⟨_, _, _, rfl, rfl, rfl, by decide⟩
theorem iny : Statement .iny := ⟨_, _, _, rfl, rfl, rfl, by decide⟩
theorem dex : Statement .dex := ⟨_, _, _, rfl, rfl, rfl, by decide⟩
theorem dey : Statement .dey := ⟨_, _, _, rfl, rfl, rfl, by decide⟩
theorem andImm (b : Byte) : Statement (.andImm b) := ⟨_, _, _, rfl, rfl, rfl, by simp [encode]⟩
theorem andZp (b : Byte) : Statement (.andZp b) := ⟨_, _, _, rfl, rfl, rfl, by simp [encode]⟩
theorem andZpX (b : Byte) : Statement (.andZpX b) := ⟨_, _, _, rfl, rfl, rfl, by simp [encode]⟩
theorem andAbs (w : Word) : Statement (.andAbs w) := ⟨_, _, _, rfl, rfl, rfl, by simp [encode, bytes3]⟩
theorem andAbsX (w : Word) : Statement (.andAbsX w) := ⟨_, _, _, rfl, rfl, rfl, by simp [encode, bytes3]⟩
theorem andAbsY (w : Word) : Statement (.andAbsY w) := ⟨_, _, _, rfl, rfl, rfl, by simp [encode, bytes3]⟩
theorem andIndX (b : Byte) : Statement (.andIndX b) := ⟨_, _, _, rfl, rfl, rfl, by simp [encode]⟩
theorem andIndY (b : Byte) : Statement (.andIndY b) := ⟨_, _, _, rfl, rfl, rfl, by simp [encode]⟩
theorem oraImm (b : Byte) : Statement (.oraImm b) := ⟨_, _, _, rfl, rfl, rfl, by simp [encode]⟩
theorem oraZp (b : Byte) : Statement (.oraZp b) := ⟨_, _, _, rfl, rfl, rfl, by simp [encode]⟩
theorem oraZpX (b : Byte) : Statement (.oraZpX b) := ⟨_, _, _, rfl, rfl, rfl, by simp [encode]⟩
theorem oraAbs (w : Word) : Statement (.oraAbs w) := ⟨_, _, _, rfl, rfl, rfl, by simp [encode, bytes3]⟩
theorem oraAbsX (w : Word) : Statement (.oraAbsX w) := ⟨_, _, _, rfl, rfl, rfl, by simp [encode, bytes3]⟩
theorem oraAbsY (w : Word) : Statement (.oraAbsY w) := ⟨_, _, _, rfl, rfl, rfl, by simp [encode, bytes3]⟩
theorem oraIndX (b : Byte) : Statement (.oraIndX b) := ⟨_, _, _, rfl, rfl, rfl, by simp [encode]⟩
theorem oraIndY (b : Byte) : Statement (.oraIndY b) := ⟨_, _, _, rfl, rfl, rfl, by simp [encode]⟩
theorem eorImm (b : Byte) : Statement (.eorImm b) := ⟨_, _, _, rfl, rfl, rfl, by simp [encode]⟩
theorem eorZp (b : Byte) : Statement (.eorZp b) := ⟨_, _, _, rfl, rfl, rfl, by simp [encode]⟩
theorem eorZpX (b : Byte) : Statement (.eorZpX b) := ⟨_, _, _, rfl, rfl, rfl, by simp [encode]⟩
theorem eorAbs (w : Word) : Statement (.eorAbs w) := ⟨_, _, _, rfl, rfl, rfl, by simp [encode, bytes3]⟩
theorem eorAbsX (w : Word) : Statement (.eorAbsX w) := ⟨_, _, _, rfl, rfl, rfl, by simp [encode, bytes3]⟩
theorem eorAbsY (w : Word) : Statement (.eorAbsY w) := ⟨_, _, _, rfl, rfl, rfl, by simp [encode, bytes3]⟩
theorem eorIndX (b : Byte) : Statement (.eorIndX b) := ⟨_, _, _, rfl, rfl, rfl, by simp [encode]⟩
theorem eorIndY (b : Byte) : Statement (.eorIndY b) := ⟨_, _, _, rfl, rfl, rfl, by simp [encode]⟩
theorem bitZp (b : Byte) : Statement (.bitZp b) := ⟨_, _, _, rfl, rfl, rfl, by simp [encode]⟩
theorem bitAbs (w : Word) : Statement (.bitAbs w) := ⟨_, _, _, rfl, rfl, rfl, by simp [encode, bytes3]⟩
theorem aslAcc : Statement .aslAcc := ⟨_, _, _, rfl, rfl, rfl, by decide⟩
theorem aslZp (b : Byte) : Statement (.aslZp b) := ⟨_, _, _, rfl, rfl, rfl, by simp [encode]⟩
theorem aslZpX (b : Byte) : Statement (.aslZpX b) := ⟨_, _, _, rfl, rfl, rfl, by simp [encode]⟩
theorem aslAbs (w : Word) : Statement (.aslAbs w) := ⟨_, _, _, rfl, rfl, rfl, by simp [encode, bytes3]⟩
theorem aslAbsX (w : Word) : Statement (.aslAbsX w) := ⟨_, _, _, rfl, rfl, rfl, by simp [encode, bytes3]⟩
theorem lsrAcc : Statement .lsrAcc := ⟨_, _, _, rfl, rfl, rfl, by decide⟩
theorem lsrZp (b : Byte) : Statement (.lsrZp b) := ⟨_, _, _, rfl, rfl, rfl, by simp [encode]⟩
theorem lsrZpX (b : Byte) : Statement (.lsrZpX b) := ⟨_, _, _, rfl, rfl, rfl, by simp [encode]⟩
theorem lsrAbs (w : Word) : Statement (.lsrAbs w) := ⟨_, _, _, rfl, rfl, rfl, by simp [encode, bytes3]⟩
theorem lsrAbsX (w : Word) : Statement (.lsrAbsX w) := ⟨_, _, _, rfl, rfl, rfl, by simp [encode, bytes3]⟩
theorem rolAcc : Statement .rolAcc := ⟨_, _, _, rfl, rfl, rfl, by decide⟩
theorem rolZp (b : Byte) : Statement (.rolZp b) := ⟨_, _, _, rfl, rfl, rfl, by simp [encode]⟩
theorem rolZpX (b : Byte) : Statement (.rolZpX b) := ⟨_, _, _, rfl, rfl, rfl, by simp [encode]⟩
theorem rolAbs (w : Word) : Statement (.rolAbs w) := ⟨_, _, _, rfl, rfl, rfl, by simp [encode, bytes3]⟩
theorem rolAbsX (w : Word) : Statement (.rolAbsX w) := ⟨_, _, _, rfl, rfl, rfl, by simp [encode, bytes3]⟩
theorem rorAcc : Statement .rorAcc := ⟨_, _, _, rfl, rfl, rfl, by decide⟩
theorem rorZp (b : Byte) : Statement (.rorZp b) := ⟨_, _, _, rfl, rfl, rfl, by simp [encode]⟩
theorem rorZpX (b : Byte) : Statement (.rorZpX b) := ⟨_, _, _, rfl, rfl, rfl, by simp [encode]⟩
theorem rorAbs (w : Word) : Statement (.rorAbs w) := ⟨_, _, _, rfl, rfl, rfl, by simp [encode, bytes3]⟩
theorem rorAbsX (w : Word) : Statement (.rorAbsX w) := ⟨_, _, _, rfl, rfl, rfl, by simp [encode, bytes3]⟩
theorem jmpAbs (w : Word) : Statement (.jmpAbs w) := ⟨_, _, _, rfl, rfl, rfl, by simp [encode, bytes3]⟩
theorem jmpInd (w : Word) : Statement (.jmpInd w) := ⟨_, _, _, rfl, rfl, rfl, by simp [encode, bytes3]⟩
theorem jsrAbs (w : Word) : Statement (.jsrAbs w) := ⟨_, _, _, rfl, rfl, rfl, by simp [encode, bytes3]⟩
theorem rts : Statement .rts := ⟨_, _, _, rfl, rfl, rfl, by decide⟩
theorem rti : Statement .rti := ⟨_, _, _, rfl, rfl, rfl, by decide⟩
theorem brk : Statement .brk := ⟨_, _, _, rfl, rfl, rfl, by decide⟩
theorem bpl (off : Int) : Statement (.bpl off) := ⟨_, _, _, rfl, rfl, rfl, by simp [encode]⟩
theorem bmi (off : Int) : Statement (.bmi off) := ⟨_, _, _, rfl, rfl, rfl, by simp [encode]⟩
theorem bvc (off : Int) : Statement (.bvc off) := ⟨_, _, _, rfl, rfl, rfl, by simp [encode]⟩
theorem bvs (off : Int) : Statement (.bvs off) := ⟨_, _, _, rfl, rfl, rfl, by simp [encode]⟩
theorem bcc (off : Int) : Statement (.bcc off) := ⟨_, _, _, rfl, rfl, rfl, by simp [encode]⟩
theorem bcs (off : Int) : Statement (.bcs off) := ⟨_, _, _, rfl, rfl, rfl, by simp [encode]⟩
theorem bne (off : Int) : Statement (.bne off) := ⟨_, _, _, rfl, rfl, rfl, by simp [encode]⟩
theorem beq (off : Int) : Statement (.beq off) := ⟨_, _, _, rfl, rfl, rfl, by simp [encode]⟩
theorem clc : Statement .clc := ⟨_, _, _, rfl, rfl, rfl, by decide⟩
theorem sec : Statement .sec := ⟨_, _, _, rfl, rfl, rfl, by decide⟩
theorem cld : Statement .cld := ⟨_, _, _, rfl, rfl, rfl, by decide⟩
theorem sed : Statement .sed := ⟨_, _, _, rfl, rfl, rfl, by decide⟩
theorem cli : Statement .cli := ⟨_, _, _, rfl, rfl, rfl, by decide⟩
theorem sei : Statement .sei := ⟨_, _, _, rfl, rfl, rfl, by decide⟩
theorem clv : Statement .clv := ⟨_, _, _, rfl, rfl, rfl, by decide⟩
theorem nop : Statement .nop := ⟨_, _, _, rfl, rfl, rfl, by decide⟩

end Sys2Proof.Laws.EncodeShape
end

