-- ==== Sys2Proof/Laws/Shapes.lean ====
section
/-! SUPPORT. What the operand forms and the shared shapes of instructions can do, said once. -/

namespace Sys2Proof.Machine

/-! ### Small words -/

@[simp] theorem mkWord_toNat (lo hi : Byte) : (mkWord lo hi).toNat = lo.toNat + 256 * hi.toNat := by
  have := lo.isLt
  simp only [mkWord, BitVec.toNat_append]
  rw [← Nat.shiftLeft_add_eq_or_of_lt this, Nat.shiftLeft_eq]
  omega

@[simp] theorem zeroPage_toNat (b : Byte) : (zeroPage b).toNat = b.toNat := by simp [zeroPage]

@[simp] theorem loByte_toNat (w : Word) : (loByte w).toNat = w.toNat % 256 := by simp [loByte]

@[simp] theorem hiByte_toNat (w : Word) : (hiByte w).toNat = w.toNat / 256 := by
  have := w.isLt
  simp [hiByte, Nat.shiftRight_eq_div_pow]
  omega

@[simp] theorem mkWord_lo_hi (w : Word) : mkWord (loByte w) (hiByte w) = w := by
  apply BitVec.eq_of_toNat_eq
  simp
  omega

@[simp] theorem loByte_mkWord (lo hi : Byte) : loByte (mkWord lo hi) = lo := by
  have := lo.isLt
  apply BitVec.eq_of_toNat_eq
  simp
  omega

@[simp] theorem hiByte_mkWord (lo hi : Byte) : hiByte (mkWord lo hi) = hi := by
  have := lo.isLt
  apply BitVec.eq_of_toNat_eq
  simp
  omega

/-- Two addresses are on one page exactly when their high bytes agree. -/
theorem page_eq_iff (a b : Word) : page a = page b ↔ a.toNat / 256 = b.toNat / 256 := by
  have key : ∀ w : Word, (page w).toNat = w.toNat / 256 * 256 := by
    intro w
    have hw := w.isLt
    have e : w.toNat / 256 * 256 = (w.toNat >>> 8) <<< 8 := by simp [Nat.shiftLeft_eq, Nat.shiftRight_eq_div_pow]
    rw [e, page, BitVec.toNat_and]
    apply Nat.eq_of_testBit_eq
    intro i
    rw [Nat.testBit_and, Nat.testBit_shiftLeft, Nat.testBit_shiftRight]
    by_cases h16 : i < 16
    · interval_cases i <;> simp [Nat.testBit]
    · have : w.toNat.testBit i = false :=
        Nat.testBit_lt_two_pow (lt_of_lt_of_le hw (Nat.pow_le_pow_right (by omega) (by omega)))
      simp only [this, Bool.false_and]
      by_cases h8 : 8 ≤ i
      · rw [show 8 + (i - 8) = i by omega, this, Bool.and_false]
      · omega
  constructor
  · intro h
    have := congrArg BitVec.toNat h
    rw [key, key] at this
    omega
  · intro h
    apply BitVec.eq_of_toNat_eq
    rw [key, key, h]

/-! ### Addressing -/

/-- The zero page holds the port and RAM, in every configuration (R40). -/
theorem readSource_zeroPage (s : State) (b : Byte) : readSource s (zeroPage b) ≠ .io := by
  have h := b.isLt
  have hn := zeroPage_toNat b
  intro hi
  have := readSource_io hi
  omega

/-- A zero-page read changes nothing. -/
@[simp] theorem memRead_zeroPage (s : State) (b : Byte) : (memRead s (zeroPage b)).2 = s :=
  memRead_pure (readSource_zeroPage s b)

/-- A pointer in the zero page, in full. -/
theorem zeroPagePointer_eq (s : State) (p : Byte) :
    zeroPagePointer s p = (mkWord (memRead s (zeroPage p)).1 (memRead s (zeroPage (p + 1))).1, s) := by
  simp [zeroPagePointer]

/-- Computing an effective address changes nothing. -/
@[simp] theorem effectiveAddress_st (m : MemMode) (s : State) : (effectiveAddress m s).st = s := by
  cases m <;> simp [effectiveAddress, indexed, zeroPagePointer_eq]

/-- A loaded operand in memory, in full. -/
theorem loadOperand_mem (m : MemMode) (s : State) :
    loadOperand (.mem m) s =
      { val := (memRead s (effectiveAddress m s).addr).1, crossed := (effectiveAddress m s).crossed
        st := (memRead s (effectiveAddress m s).addr).2 } := by
  simp [loadOperand]

/-- An immediate operand, in full. -/
theorem loadOperand_imm (b : Byte) (s : State) : loadOperand (.imm b) s = { val := b, crossed := false, st := s } := rfl

/-- Loading an operand changes the CIAs' interrupt latches and the color draw counter at most. -/
theorem loadOperand_frame (o : Operand) (s : State) :
    (loadOperand o s).st = { s with
      colorDraws := (loadOperand o s).st.colorDraws, ciaA := (loadOperand o s).st.ciaA
      ciaB := (loadOperand o s).st.ciaB } := by
  cases o with
  | imm b => rfl
  | mem m =>
    rw [loadOperand_mem]
    exact memRead_frame ..

theorem loadOperand_ciaA (o : Operand) (s : State) :
    (loadOperand o s).st.ciaA = { s.ciaA with icrLatch := (loadOperand o s).st.ciaA.icrLatch } := by
  cases o with
  | imm b => rfl
  | mem m =>
    rw [loadOperand_mem]
    exact memRead_ciaA ..

theorem loadOperand_ciaB (o : Operand) (s : State) :
    (loadOperand o s).st.ciaB = { s.ciaB with icrLatch := (loadOperand o s).st.ciaB.icrLatch } := by
  cases o with
  | imm b => rfl
  | mem m =>
    rw [loadOperand_mem]
    exact memRead_ciaB ..

@[simp] theorem loadOperand_a (o : Operand) (s : State) : (loadOperand o s).st.a = s.a := by rw [loadOperand_frame]
@[simp] theorem loadOperand_x (o : Operand) (s : State) : (loadOperand o s).st.x = s.x := by rw [loadOperand_frame]
@[simp] theorem loadOperand_y (o : Operand) (s : State) : (loadOperand o s).st.y = s.y := by rw [loadOperand_frame]
@[simp] theorem loadOperand_sp (o : Operand) (s : State) : (loadOperand o s).st.sp = s.sp := by rw [loadOperand_frame]
@[simp] theorem loadOperand_pc (o : Operand) (s : State) : (loadOperand o s).st.pc = s.pc := by rw [loadOperand_frame]
@[simp] theorem loadOperand_p (o : Operand) (s : State) : (loadOperand o s).st.p = s.p := by rw [loadOperand_frame]
@[simp] theorem loadOperand_nmiPending (o : Operand) (s : State) : (loadOperand o s).st.nmiPending = s.nmiPending := by rw [loadOperand_frame]
@[simp] theorem loadOperand_irqPending (o : Operand) (s : State) : (loadOperand o s).st.irqPending = s.irqPending := by rw [loadOperand_frame]
@[simp] theorem loadOperand_cycles (o : Operand) (s : State) : (loadOperand o s).st.cycles = s.cycles := by rw [loadOperand_frame]
@[simp] theorem loadOperand_fault (o : Operand) (s : State) : (loadOperand o s).st.fault = s.fault := by rw [loadOperand_frame]
@[simp] theorem loadOperand_stepCycles (o : Operand) (s : State) : (loadOperand o s).st.stepCycles = s.stepCycles := by rw [loadOperand_frame]
@[simp] theorem loadOperand_ram (o : Operand) (s : State) : (loadOperand o s).st.ram = s.ram := by rw [loadOperand_frame]
@[simp] theorem loadOperand_romBasic (o : Operand) (s : State) : (loadOperand o s).st.romBasic = s.romBasic := by rw [loadOperand_frame]
@[simp] theorem loadOperand_romKernal (o : Operand) (s : State) : (loadOperand o s).st.romKernal = s.romKernal := by rw [loadOperand_frame]
@[simp] theorem loadOperand_romChar (o : Operand) (s : State) : (loadOperand o s).st.romChar = s.romChar := by rw [loadOperand_frame]
@[simp] theorem loadOperand_ddr (o : Operand) (s : State) : (loadOperand o s).st.ddr = s.ddr := by rw [loadOperand_frame]
@[simp] theorem loadOperand_data (o : Operand) (s : State) : (loadOperand o s).st.data = s.data := by rw [loadOperand_frame]
@[simp] theorem loadOperand_color (o : Operand) (s : State) : (loadOperand o s).st.color = s.color := by rw [loadOperand_frame]
@[simp] theorem loadOperand_vic (o : Operand) (s : State) : (loadOperand o s).st.vic = s.vic := by rw [loadOperand_frame]
@[simp] theorem loadOperand_keys (o : Operand) (s : State) : (loadOperand o s).st.keys = s.keys := by rw [loadOperand_frame]
@[simp] theorem loadOperand_nmiLinePrev (o : Operand) (s : State) : (loadOperand o s).st.nmiLinePrev = s.nmiLinePrev := by rw [loadOperand_frame]
@[simp] theorem loadOperand_frameCycles (o : Operand) (s : State) : (loadOperand o s).st.frameCycles = s.frameCycles := by rw [loadOperand_frame]
@[simp] theorem loadOperand_paused (o : Operand) (s : State) : (loadOperand o s).st.paused = s.paused := by rw [loadOperand_frame]
@[simp] theorem loadOperand_shutdown (o : Operand) (s : State) : (loadOperand o s).st.shutdown = s.shutdown := by rw [loadOperand_frame]
@[simp] theorem loadOperand_halted (o : Operand) (s : State) : (loadOperand o s).st.halted = s.halted := by rw [loadOperand_frame]
@[simp] theorem loadOperand_frameOpen (o : Operand) (s : State) : (loadOperand o s).st.frameOpen = s.frameOpen := by rw [loadOperand_frame]
@[simp] theorem loadOperand_events (o : Operand) (s : State) : (loadOperand o s).st.events = s.events := by rw [loadOperand_frame]

@[simp] theorem loadOperand_ramByte (o : Operand) (s : State) (a : Word) :
    ramByte (loadOperand o s).st a = ramByte s a := by simp [ramByte]

/-! ### The shapes -/

/-- A storing instruction in full (R82). -/
theorem storeOp_eq (m : MemMode) (n : Nat) (v : Byte) (s : State) :
    storeOp m n v s = finish (memWrite s (effectiveAddress m s).addr v) (memLength m) n := by
  simp [storeOp]

/-- A read-modify-write instruction in full (R53). -/
theorem modifyOp_eq (m : MemMode) (n : Nat) (f : Byte → Flags → Byte × Flags) (s : State) :
    modifyOp m n f s =
      let r := memRead s (effectiveAddress m s).addr
      finish (setP (memWrite r.2 (effectiveAddress m s).addr (f r.1 s.p).1) (f r.1 s.p).2) (memLength m) n := by
  simp [modifyOp]

/-- Where the bus goes does not depend on what a read leaves behind. -/
@[simp] theorem readSource_memRead (s : State) (a b : Word) : readSource (memRead s a).2 b = readSource s b := by
  simp [readSource, loram, hiram, charen, bankCfg]

/-- Where the bus goes depends on the port only. -/
theorem readSource_congr {s t : State} (hd : t.ddr = s.ddr) (hp : t.data = s.data) (a : Word) :
    readSource t a = readSource s a := by
  simp [readSource, loram, hiram, charen, bankCfg, hd, hp]

/-! ### Exceptions -/

/-- Taking an exception through a vector at $FFFA or above, in full: three RAM stores in the stack page, S, I and PC (R121,
R140). -/
theorem takeException_eq {vec : Word} (ret : Word) (b : Bool) (s : State) (h : 0xFFFA ≤ vec.toNat)
    (h1 : 0xFFFA ≤ (vec + 1).toNat) :
    takeException ret b vec s = { s with
      ram := Memory.write Config.ramFill
        (Memory.write Config.ramFill
          (Memory.write Config.ramFill s.ram (stackAddr s.sp).toNat (hiByte ret))
          (stackAddr (s.sp - 1)).toNat (loByte ret))
        (stackAddr (s.sp - 2)).toNat (pImage b s.p)
      sp := s.sp - 3
      p := { s.p with i := true }
      pc := mkWord (memRead s vec).1 (memRead s (vec + 1)).1
      stepCycles := 7 } := by
  have hs : s.sp - 2 - 1 = s.sp - 3 := by bv_omega
  have key : ∀ (a : Word) (t : State), 0xFFFA ≤ a.toNat → t.ddr = s.ddr → t.data = s.data → t.romKernal = s.romKernal →
      (∀ a : Word, 0xFFFA ≤ a.toNat → ramByte t a = ramByte s a) → (memRead t a).1 = (memRead s a).1 := by
    intro a t ha hd hp hk hr
    have e := readSource_congr (s := s) (t := t) hd hp a
    have hh := readSource_high (s := s) (a := a) (by omega)
    unfold memRead
    rw [e, hh]
    by_cases hr' : hiram s = true
    · simp [hr', kernalByte, hk]
    · simpa [hr'] using hr a ha
  simp only [takeException, pushWord_eq, push_eq, setP]
  rw [read16_high (by omega) (by omega)]
  simp only [hs, finishAt]
  congr 1
  have hram : ∀ a : Word, 0xFFFA ≤ a.toNat → Memory.read Config.ramFill
        (Memory.write Config.ramFill
          (Memory.write Config.ramFill
            (Memory.write Config.ramFill s.ram (stackAddr s.sp).toNat (hiByte ret))
            (stackAddr (s.sp - 1)).toNat (loByte ret))
          (stackAddr (s.sp - 2)).toNat (pImage b s.p)) a.toNat = ramByte s a := by
    intro a ha
    have h0 := s.sp.isLt
    have h1 := (s.sp - 1).isLt
    have h2 := (s.sp - 2).isLt
    rw [Memory.read_write_other _ _ _ (by rw [stackAddr_toNat]; omega),
      Memory.read_write_other _ _ _ (by rw [stackAddr_toNat]; omega),
      Memory.read_write_other _ _ _ (by rw [stackAddr_toNat]; omega)]
    rfl
  congr 1
  · exact key _ _ h rfl rfl rfl hram
  · exact key _ _ h1 rfl rfl rfl hram

/-- The return from an exception, in full (R120, R146). -/
theorem returnFromException_eq (s : State) :
    returnFromException s = { s with
      p := flagsOf (ramByte s (stackAddr (s.sp + 1)))
      pc := mkWord (ramByte s (stackAddr (s.sp + 2))) (ramByte s (stackAddr (s.sp + 3)))
      sp := s.sp + 3
      stepCycles := 6 } := by
  have h2 : s.sp + 1 + 1 = s.sp + 2 := by bv_omega
  have h3 : s.sp + 1 + 2 = s.sp + 3 := by bv_omega
  simp only [returnFromException, pull_eq, setP, pullWord_eq, finishAt, h2, h3]
  rfl

/-- Pulling the status byte undoes pushing it: B and bit 5 are dropped (R23, R94, R120). -/
@[simp] theorem flagsOf_pImage (b : Bool) (f : Flags) : flagsOf (pImage b f) = f := by
  obtain ⟨n, v, d, i, z, c⟩ := f
  cases b <;> cases n <;> cases v <;> cases d <;> cases i <;> cases z <;> cases c <;> rfl

end Sys2Proof.Machine
end

