-- ==== Sys2Proof/Laws/Step.lean ====
section
/-! SUPPORT. What an instruction, a CPU step and a machine step can do, said once: a property that bus accesses and register
updates keep is kept by every instruction, by interrupt entry and by the fetch; and the step in each of its cases. -/

namespace Sys2Proof.Machine

/-! ### Properties that the CPU keeps -/

/-- A property of states that bus reads, bus writes and updates of the CPU's registers keep. -/
structure Stable (P : State → Prop) : Prop where
  read  : ∀ (s : State) (a : Word), P s → P (memRead s a).2
  write : ∀ (s : State) (a : Word) (v : Byte), P s → P (memWrite s a v)
  regs  : ∀ (s : State) (a x y sp : Byte) (pc : Word) (p : Flags) (n : Nat), P s →
    P { s with a := a, x := x, y := y, sp := sp, pc := pc, p := p, stepCycles := n }

variable {P : State → Prop}

theorem Stable.finishAt (h : Stable P) {s : State} (pc : Word) (n : Nat) (hs : P s) : P (finishAt s pc n) :=
  h.regs s s.a s.x s.y s.sp pc s.p n hs

theorem Stable.finish (h : Stable P) {s : State} (len n : Nat) (hs : P s) : P (finish s len n) :=
  h.finishAt _ _ hs

theorem Stable.setP (h : Stable P) {s : State} (f : Flags) (hs : P s) : P (setP s f) :=
  h.regs s s.a s.x s.y s.sp s.pc f s.stepCycles hs

theorem Stable.setA (h : Stable P) {s : State} (v : Byte) (hs : P s) : P (setA s v) :=
  h.regs s v s.x s.y s.sp s.pc s.p s.stepCycles hs

theorem Stable.setX (h : Stable P) {s : State} (v : Byte) (hs : P s) : P (setX s v) :=
  h.regs s s.a v s.y s.sp s.pc s.p s.stepCycles hs

theorem Stable.setY (h : Stable P) {s : State} (v : Byte) (hs : P s) : P (setY s v) :=
  h.regs s s.a s.x v s.sp s.pc s.p s.stepCycles hs

theorem Stable.setSp (h : Stable P) {s : State} (v : Byte) (hs : P s) : P (setSp s v) :=
  h.regs s s.a s.x s.y v s.pc s.p s.stepCycles hs

theorem Stable.push (h : Stable P) {s : State} (v : Byte) (hs : P s) : P (push s v) :=
  h.setSp _ (h.write _ _ _ hs)

theorem Stable.pushWord (h : Stable P) {s : State} (w : Word) (hs : P s) : P (pushWord s w) :=
  h.push _ (h.push _ hs)

theorem Stable.pull (h : Stable P) {s : State} (hs : P s) : P (pull s).2 := h.read _ _ (h.setSp _ hs)

theorem Stable.pullWord (h : Stable P) {s : State} (hs : P s) : P (pullWord s).2 := h.pull (h.pull hs)

theorem Stable.read16 (h : Stable P) {s : State} (a : Word) (hs : P s) : P (read16 s a).2 := h.read _ _ (h.read _ _ hs)

theorem Stable.loadOperand (h : Stable P) {s : State} (o : Operand) (hs : P s) : P (loadOperand o s).st := by
  cases o with
  | imm b => exact hs
  | mem m =>
    rw [loadOperand_mem]
    exact h.read _ _ hs

theorem Stable.readOp (h : Stable P) {s : State} (o : Operand) (n : Nat) (f : Byte → State → State)
    (hf : ∀ v u, P u → P (f v u)) (hs : P s) : P (readOp o n f s) := h.finish _ _ (hf _ _ (h.loadOperand o hs))

theorem Stable.storeOp (h : Stable P) {s : State} (m : MemMode) (n : Nat) (v : Byte) (hs : P s) : P (storeOp m n v s) := by
  rw [storeOp_eq]
  exact h.finish _ _ (h.write _ _ _ hs)

theorem Stable.modifyOp (h : Stable P) {s : State} (m : MemMode) (n : Nat) (f : Byte → Flags → Byte × Flags) (hs : P s) :
    P (modifyOp m n f s) := by
  rw [modifyOp_eq]
  exact h.finish _ _ (h.setP _ (h.write _ _ _ (h.read _ _ hs)))

theorem Stable.branchOp (h : Stable P) {s : State} (off : Int) (c : Bool) (hs : P s) : P (branchOp off c s) := by
  unfold Machine.branchOp
  split <;> exact h.finishAt _ _ hs

theorem Stable.impliedOp (h : Stable P) {s : State} (n : Nat) (f : State → State) (hf : ∀ u, P u → P (f u)) (hs : P s) :
    P (impliedOp n f s) := h.finish _ _ (hf _ hs)

theorem Stable.takeException (h : Stable P) {s : State} (ret : Word) (b : Bool) (vec : Word) (hs : P s) :
    P (takeException ret b vec s) :=
  h.finishAt _ _ (h.read16 _ (h.setP _ (h.push _ (h.pushWord _ hs))))

theorem Stable.interruptEntry (h : Stable P) {s : State} (vec : Word) (hs : P s) : P (interruptEntry vec s) :=
  h.takeException _ _ _ hs

theorem Stable.returnFromException (h : Stable P) {s : State} (hs : P s) : P (returnFromException s) :=
  h.finishAt _ _ (h.pullWord (h.setP _ (h.pull hs)))

theorem Stable.indirectTarget (h : Stable P) {s : State} (w : Word) (hs : P s) : P (indirectTarget w s).2 :=
  h.read _ _ (h.read _ _ hs)

/-! ### Instructions -/

/-- Every instruction answers a next state, and that state keeps every property the CPU keeps (R148). -/
theorem exec_stable (h : Stable P) (i : Instr) {s : State} (hs : P s) : ∃ t, exec i s = .next t ∧ P t := by
  cases i
  case jmpAbs w => exact ⟨_, rfl, h.finishAt _ _ hs⟩
  case jmpInd w => exact ⟨_, rfl, h.finishAt _ _ (h.indirectTarget _ hs)⟩
  case jsrAbs w => exact ⟨_, rfl, h.finishAt _ _ (h.pushWord _ hs)⟩
  case rts => exact ⟨_, rfl, h.finishAt _ _ (h.pullWord hs)⟩
  case rti => exact ⟨_, rfl, h.returnFromException hs⟩
  case brk => exact ⟨_, rfl, h.takeException _ _ _ hs⟩
  case pha => exact ⟨_, rfl, h.impliedOp _ _ (fun _ hu => h.push _ hu) hs⟩
  case php => exact ⟨_, rfl, h.impliedOp _ _ (fun _ hu => h.push _ hu) hs⟩
  case pla => exact ⟨_, rfl, h.impliedOp _ _ (fun _ hu => h.setP _ (h.setA _ (h.pull hu))) hs⟩
  case plp => exact ⟨_, rfl, h.impliedOp _ _ (fun _ hu => h.setP _ (h.pull hu)) hs⟩
  case txs => exact ⟨_, rfl, h.impliedOp _ _ (fun _ hu => h.setSp _ hu) hs⟩
  case nop => exact ⟨_, rfl, h.impliedOp _ _ (fun _ hu => hu) hs⟩
  all_goals refine ⟨_, rfl, ?_⟩
  all_goals first
    | (with_reducible refine h.storeOp _ _ _ hs)
    | (with_reducible refine h.branchOp _ _ hs)
    | (with_reducible refine h.modifyOp _ _ _ hs)
    | ((with_reducible refine h.readOp _ _ _ ?_ hs); intro v u hu)
    | ((with_reducible refine h.impliedOp _ _ ?_ hs); intro u hu)
  all_goals first
    | exact h.setP _ hu
    | exact h.setP _ (h.setA _ hu)
    | exact h.setP _ (h.setX _ hu)
    | exact h.setP _ (h.setY _ hu)

/-- Every instruction answers a next state. -/
theorem exec_next (i : Instr) (s : State) : ∃ t, exec i s = .next t :=
  (exec_stable (P := fun _ => True) ⟨fun _ _ _ => trivial, fun _ _ _ _ => trivial, fun _ _ _ _ _ _ _ _ _ => trivial⟩ i
    trivial).imp fun _ h => h.1

/-! ### The fetch and the CPU step -/

/-- A fetch that finds an illegal opcode (R76). -/
theorem fetch_illegal {s : State} (h : lookupShape (memRead s s.pc).1 = none) :
    fetch s = .illegal (memRead s s.pc).1 (memRead s s.pc).2 := by simp [fetch, h]

/-- A fetch of a one-byte instruction. -/
theorem fetch_f1 {s : State} {i : Instr} (h : lookupShape (memRead s s.pc).1 = some (.f1 i)) :
    fetch s = .instr i (memRead s s.pc).2 := by simp [fetch, h]

/-- A fetch of a two-byte instruction. -/
theorem fetch_f2 {s : State} {k : Byte → Instr} (h : lookupShape (memRead s s.pc).1 = some (.f2 k)) :
    fetch s = .instr (k (memRead (memRead s s.pc).2 (s.pc + 1)).1) (memRead (memRead s s.pc).2 (s.pc + 1)).2 := by
  simp [fetch, h]

/-- A fetch of a three-byte instruction. -/
theorem fetch_f3 {s : State} {k : Word → Instr} (h : lookupShape (memRead s s.pc).1 = some (.f3 k)) :
    fetch s =
      .instr (k (mkWord (memRead (memRead s s.pc).2 (s.pc + 1)).1
          (memRead (memRead (memRead s s.pc).2 (s.pc + 1)).2 (s.pc + 2)).1))
        (memRead (memRead (memRead s s.pc).2 (s.pc + 1)).2 (s.pc + 2)).2 := by simp [fetch, h]

/-- The state after a fetch keeps every property the CPU keeps. -/
theorem Stable.fetch (h : Stable P) {s : State} (hs : P s) :
    (∀ op u, fetch s = .illegal op u → P u) ∧ (∀ i u, fetch s = .instr i u → P u) := by
  have h1 := h.read s s.pc hs
  have h2 := h.read _ (s.pc + 1) h1
  have h3 := h.read _ (s.pc + 2) h2
  cases hl : lookupShape (memRead s s.pc).1 with
  | none =>
    rw [fetch_illegal hl]
    exact ⟨fun op u e => (by cases e; exact h1), fun i u e => (by cases e)⟩
  | some sh =>
    cases sh with
    | f1 i =>
      rw [fetch_f1 hl]
      exact ⟨fun op u e => (by cases e), fun i u e => (by cases e; exact h1)⟩
    | f2 k =>
      rw [fetch_f2 hl]
      exact ⟨fun op u e => (by cases e), fun i u e => (by cases e; exact h2)⟩
    | f3 k =>
      rw [fetch_f3 hl]
      exact ⟨fun op u e => (by cases e), fun i u e => (by cases e; exact h3)⟩

/-- The CPU step when nothing is pending: the fetch, then the fatal fault or the instruction (R138). -/
theorem cpuStep_fetch {s : State} (hf : s.fault = none) (hn : NoInterrupt s) :
    cpuStep s = match fetch s with
      | .illegal op u => .next (raiseFatal op u)
      | .instr i u => exec i u := by
  have hi : (s.irqPending && !s.p.i) = false := by
    rcases hn.2 with h | h <;> simp [h]
  unfold cpuStep
  refine (if_neg (by simp [hf])).trans ((if_neg (by simp [hn.1])).trans ((if_neg (by simp [hi])).trans ?_))
  cases fetch s <;> rfl

/-- What a CPU step can be: the entry of a pending NMI or of an unmasked IRQ, a fatal fault, or an instruction; and
without a recorded fault it always answers one of these (R138). -/
theorem cpuStep_cases {s : State} (hf : s.fault = none) :
    (s.nmiPending = true ∧ cpuStep s = .next (interruptEntry nmiVector { s with nmiPending := false })) ∨
    (s.nmiPending = false ∧ s.irqPending = true ∧ s.p.i = false ∧
      cpuStep s = .next (interruptEntry irqVector { s with irqPending := false })) ∨
    (NoInterrupt s ∧ ∃ op u, fetch s = .illegal op u ∧ cpuStep s = .next (raiseFatal op u)) ∨
    (NoInterrupt s ∧ ∃ i u t, fetch s = .instr i u ∧ exec i u = .next t ∧ cpuStep s = .next t) := by
  by_cases hn : s.nmiPending = true
  · exact .inl ⟨hn, by simp [cpuStep, hf, hn]⟩
  · have hn' : s.nmiPending = false := by simpa using hn
    by_cases hi : s.irqPending = true ∧ s.p.i = false
    · exact .inr (.inl ⟨hn', hi.1, hi.2, by simp [cpuStep, hf, hn', hi.1, hi.2]⟩)
    · have hno : NoInterrupt s := by
        refine ⟨hn', ?_⟩
        cases h1 : s.irqPending <;> cases h2 : s.p.i <;> simp_all
      refine .inr (.inr ?_)
      have e := cpuStep_fetch hf hno
      cases hfe : fetch s with
      | illegal op u =>
        rw [hfe] at e
        exact .inl ⟨hno, op, u, rfl, e⟩
      | instr i u =>
        rw [hfe] at e
        obtain ⟨t, ht⟩ := exec_next i u
        exact .inr ⟨hno, i, u, t, rfl, ht, e.trans ht⟩

/-- A CPU step that keeps running keeps every property that the CPU keeps and that the pending bits do not touch. -/
theorem Stable.cpuStep (h : Stable P) (hp : ∀ (s : State) (n q : Bool), P s → P { s with nmiPending := n, irqPending := q })
    (hr : ∀ (s : State) (op : Byte), P s → P (raiseFatal op s)) {s t : State} (hs : P s) (ht : cpuStep s = .next t) :
    P t := by
  cases hf : s.fault with
  | some f => simp [Machine.cpuStep, hf] at ht
  | none =>
    rcases cpuStep_cases hf with ⟨-, e⟩ | ⟨-, -, -, e⟩ | ⟨-, op, u, hu, e⟩ | ⟨-, i, u, r, hu, hi, e⟩
    all_goals
      rw [e] at ht
      cases ht
    · exact h.interruptEntry _ (hp s false s.irqPending hs)
    · exact h.interruptEntry _ (hp s s.nmiPending false hs)
    · exact hr _ _ ((h.fetch hs).1 _ _ hu)
    · obtain ⟨r', hr', hP⟩ := exec_stable h i ((h.fetch hs).2 _ _ hu)
      rw [hi] at hr'
      cases hr'
      exact hP

/-! ### Events and the start of an iteration -/

/-- Events change the key matrix and the NMI bit only (R190, R191). -/
theorem applyEvents_frame (es : List KeyEvent) (s : State) :
    applyEvents es s = { s with keys := (applyEvents es s).keys, nmiPending := (applyEvents es s).nmiPending } := by
  induction es generalizing s with
  | nil => rfl
  | cons e es ih =>
    have h1 : applyEvent s e = { s with keys := (applyEvent s e).keys, nmiPending := (applyEvent s e).nmiPending } := by
      unfold applyEvent
      split
      · rfl
      · split <;> rfl
    have h2 : applyEvents (e :: es) s = applyEvents es (applyEvent s e) := rfl
    rw [h2]
    refine (ih (applyEvent s e)).trans ?_
    rw [h1]

/-- The iteration begins in a state that differs from the machine's in the events, the keys, the NMI bit and the frame's
counter only (R186). -/
theorem atIteration_frame (s : State) :
    atIteration s = { s with
      keys := (atIteration s).keys, nmiPending := (atIteration s).nmiPending, events := (atIteration s).events
      frameCycles := (atIteration s).frameCycles, frameOpen := true } := by
  unfold atIteration
  split
  · rename_i h
    rw [← h]
  · unfold openFrame takeEvents
    rw [applyEvents_frame]

/-- Inside a frame the iteration begins in the machine's state. -/
theorem atIteration_open {s : State} (h : s.frameOpen = true) : atIteration s = s := by simp [atIteration, h]

/-! ### The machine step -/

/-- The step of a machine whose loop runs: the CPU step at the state in which the iteration begins, the ticks and samples,
and the end-of-frame test (R183, R186). -/
theorem step_runnable {s : State} (h : Runnable s) :
    step s = onNext (cpuStep (atIteration s)) (fun t => closeFrame (afterStep t)) := by
  obtain ⟨h1, h2, h3, h4⟩ := h
  have hsh : (atIteration s).shutdown = false := by rw [atIteration_frame]; exact h3
  have hlp : loopPass (atIteration s) = onNext (cpuStep (atIteration s)) (fun t => closeFrame (afterStep t)) := by
    simp only [loopPass, hsh, iterate, Bool.false_eq_true, if_false]
    cases cpuStep (atIteration s) <;> rfl
  rw [← hlp]
  simp only [step, loopStep, h1, h2, Option.isSome_none, Bool.or_false, Bool.false_eq_true, if_false]
  unfold atIteration
  cases hfo : s.frameOpen with
  | true => simp
  | false => simp [h4.resolve_left (by simp [hfo])]

/-- What a step can be: the halted stop, the shutdown stop, a paused frame, or an iteration (R186 to R189). -/
theorem step_cases (s : State) :
    ((s.halted = true ∨ s.fault.isSome = true) ∧ step s = .fault .halted) ∨
    (s.halted = false ∧ s.fault = none ∧ s.frameOpen = false ∧ s.paused = true ∧ step s = .next (takeEvents s)) ∨
    (s.halted = false ∧ s.fault = none ∧ s.shutdown = true ∧ (s.frameOpen = true ∨ s.paused = false) ∧
      step s = .fault .shutdownExit) ∨
    (Runnable s ∧ ∃ u, cpuStep (atIteration s) = .next u ∧ step s = .next (closeFrame (afterStep u))) := by
  by_cases hh : s.halted = true ∨ s.fault.isSome = true
  · exact .inl ⟨hh, by simpa [step, loopStep] using fun a b => by simp_all⟩
  · have h1 : s.halted = false := by
      cases h : s.halted <;> simp_all
    have h2 : s.fault = none := by
      cases h : s.fault <;> simp_all
    refine .inr ?_
    by_cases hp : s.frameOpen = false ∧ s.paused = true
    · exact .inl ⟨h1, h2, hp.1, hp.2, by simp [step, loopStep, h1, h2, hp.1, hp.2]⟩
    · have h4 : s.frameOpen = true ∨ s.paused = false := by
        cases h : s.frameOpen <;> cases h' : s.paused <;> simp_all
      refine .inr ?_
      by_cases hs : s.shutdown = true
      · have hso : (openFrame (takeEvents s)).shutdown = true := by
          unfold openFrame takeEvents
          rw [applyEvents_frame]
          exact hs
        refine .inl ⟨h1, h2, hs, h4, ?_⟩
        cases hfo : s.frameOpen with
        | true => simp [step, loopStep, h1, h2, hfo, loopPass, hs]
        | false => simp [step, loopStep, h1, h2, hfo, h4.resolve_left (by simp [hfo]), loopPass, hso]
      · have hr : Runnable s := ⟨h1, h2, by simpa using hs, h4⟩
        have hf : (atIteration s).fault = none := by rw [atIteration_frame]; exact h2
        refine .inr ⟨hr, ?_⟩
        have e := step_runnable hr
        rcases cpuStep_cases hf with ⟨-, c⟩ | ⟨-, -, -, c⟩ | ⟨-, op, u, hu, c⟩ | ⟨-, i, u, r, hu, hi, c⟩
        all_goals
          rw [c] at e ⊢
          exact ⟨_, rfl, e⟩

end Sys2Proof.Machine
end

