-- ==== Sys2Proof/Tests/Slice0.lean ====
section
/-! SUPPORT. Tests: ill-formed terms are refused; every constructor's decoding, from words written out from the encodings of
spec/30_encoding.md section 6 and the opcode table; single steps with the results of spec/95_test_vectors.md; and a witness
for the hypotheses of every statement that has some. -/

namespace Sys2Proof.Tests

open Sys2Proof.Machine

-- one theorem at a time: each elaboration thread reserves its whole stack
set_option Elab.async false

/-! ### WellFormed: a branch offset outside -128..+127 is refused (R60, R73) -/

theorem test_illformed_bpl : (Instr.bpl 128).wellFormed = false ∧ (Instr.bpl (-129)).wellFormed = false := by decide
theorem test_illformed_bmi : (Instr.bmi 128).wellFormed = false ∧ (Instr.bmi (-129)).wellFormed = false := by decide
theorem test_illformed_bvc : (Instr.bvc 128).wellFormed = false ∧ (Instr.bvc (-129)).wellFormed = false := by decide
theorem test_illformed_bvs : (Instr.bvs 128).wellFormed = false ∧ (Instr.bvs (-129)).wellFormed = false := by decide
theorem test_illformed_bcc : (Instr.bcc 128).wellFormed = false ∧ (Instr.bcc (-129)).wellFormed = false := by decide
theorem test_illformed_bcs : (Instr.bcs 128).wellFormed = false ∧ (Instr.bcs (-129)).wellFormed = false := by decide
theorem test_illformed_bne : (Instr.bne 128).wellFormed = false ∧ (Instr.bne (-129)).wellFormed = false := by decide
theorem test_illformed_beq : (Instr.beq 128).wellFormed = false ∧ (Instr.beq (-129)).wellFormed = false := by decide

theorem test_wellformed_edges : (Instr.bpl 127).wellFormed = true ∧ (Instr.beq (-128)).wellFormed = true := by decide

/-! ### Decode: one word per constructor, bit by bit, opcode bits from the opcode table, operand bytes $34, or $34 $12 low byte
first (R47, R57, R75), branch offset $FB = -5 (R60) -/

theorem test_decode_load_store_1 :
    ∀ p ∈ ([([0b10000001, 0b00110100], .staIndX 0x34), ([0b10000100, 0b00110100], .styZp 0x34),
      ([0b10000101, 0b00110100], .staZp 0x34), ([0b10000110, 0b00110100], .stxZp 0x34),
      ([0b10001100, 0b00110100, 0b00010010], .styAbs 0x1234), ([0b10001101, 0b00110100, 0b00010010], .staAbs 0x1234),
      ([0b10001110, 0b00110100, 0b00010010], .stxAbs 0x1234), ([0b10010001, 0b00110100], .staIndY 0x34),
      ([0b10010100, 0b00110100], .styZpX 0x34), ([0b10010101, 0b00110100], .staZpX 0x34),
      ([0b10010110, 0b00110100], .stxZpY 0x34), ([0b10011001, 0b00110100, 0b00010010], .staAbsY 0x1234),
      ([0b10011101, 0b00110100, 0b00010010], .staAbsX 0x1234), ([0b10100000, 0b00110100], .ldyImm 0x34),
      ([0b10100001, 0b00110100], .ldaIndX 0x34), ([0b10100010, 0b00110100], .ldxImm 0x34)] : List (List Byte × Instr)),
      decode p.1 = some (p.2, []) := by decide +kernel

theorem test_decode_load_store_2 :
    ∀ p ∈ ([([0b10100100, 0b00110100], .ldyZp 0x34), ([0b10100101, 0b00110100], .ldaZp 0x34),
      ([0b10100110, 0b00110100], .ldxZp 0x34), ([0b10101001, 0b00110100], .ldaImm 0x34),
      ([0b10101100, 0b00110100, 0b00010010], .ldyAbs 0x1234), ([0b10101101, 0b00110100, 0b00010010], .ldaAbs 0x1234),
      ([0b10101110, 0b00110100, 0b00010010], .ldxAbs 0x1234), ([0b10110001, 0b00110100], .ldaIndY 0x34),
      ([0b10110100, 0b00110100], .ldyZpX 0x34), ([0b10110101, 0b00110100], .ldaZpX 0x34),
      ([0b10110110, 0b00110100], .ldxZpY 0x34), ([0b10111001, 0b00110100, 0b00010010], .ldaAbsY 0x1234),
      ([0b10111100, 0b00110100, 0b00010010], .ldyAbsX 0x1234), ([0b10111101, 0b00110100, 0b00010010], .ldaAbsX 0x1234),
      ([0b10111110, 0b00110100, 0b00010010], .ldxAbsY 0x1234)] : List (List Byte × Instr)),
      decode p.1 = some (p.2, []) := by decide +kernel

theorem test_decode_transfer_stack_1 :
    ∀ p ∈ ([([0b00001000], .php), ([0b00101000], .plp),
      ([0b01001000], .pha), ([0b01101000], .pla),
      ([0b10001010], .txa), ([0b10011000], .tya),
      ([0b10011010], .txs), ([0b10101000], .tay),
      ([0b10101010], .tax), ([0b10111010], .tsx)] : List (List Byte × Instr)),
      decode p.1 = some (p.2, []) := by decide +kernel

theorem test_decode_arithmetic_1 :
    ∀ p ∈ ([([0b01100001, 0b00110100], .adcIndX 0x34), ([0b01100101, 0b00110100], .adcZp 0x34),
      ([0b01101001, 0b00110100], .adcImm 0x34), ([0b01101101, 0b00110100, 0b00010010], .adcAbs 0x1234),
      ([0b01110001, 0b00110100], .adcIndY 0x34), ([0b01110101, 0b00110100], .adcZpX 0x34),
      ([0b01111001, 0b00110100, 0b00010010], .adcAbsY 0x1234), ([0b01111101, 0b00110100, 0b00010010], .adcAbsX 0x1234),
      ([0b10001000], .dey), ([0b11000000, 0b00110100], .cpyImm 0x34),
      ([0b11000001, 0b00110100], .cmpIndX 0x34), ([0b11000100, 0b00110100], .cpyZp 0x34),
      ([0b11000101, 0b00110100], .cmpZp 0x34), ([0b11000110, 0b00110100], .decZp 0x34),
      ([0b11001000], .iny), ([0b11001001, 0b00110100], .cmpImm 0x34)] : List (List Byte × Instr)),
      decode p.1 = some (p.2, []) := by decide +kernel

theorem test_decode_arithmetic_2 :
    ∀ p ∈ ([([0b11001010], .dex), ([0b11001100, 0b00110100, 0b00010010], .cpyAbs 0x1234),
      ([0b11001101, 0b00110100, 0b00010010], .cmpAbs 0x1234), ([0b11001110, 0b00110100, 0b00010010], .decAbs 0x1234),
      ([0b11010001, 0b00110100], .cmpIndY 0x34), ([0b11010101, 0b00110100], .cmpZpX 0x34),
      ([0b11010110, 0b00110100], .decZpX 0x34), ([0b11011001, 0b00110100, 0b00010010], .cmpAbsY 0x1234),
      ([0b11011101, 0b00110100, 0b00010010], .cmpAbsX 0x1234), ([0b11011110, 0b00110100, 0b00010010], .decAbsX 0x1234),
      ([0b11100000, 0b00110100], .cpxImm 0x34), ([0b11100001, 0b00110100], .sbcIndX 0x34),
      ([0b11100100, 0b00110100], .cpxZp 0x34), ([0b11100101, 0b00110100], .sbcZp 0x34),
      ([0b11100110, 0b00110100], .incZp 0x34), ([0b11101000], .inx)] : List (List Byte × Instr)),
      decode p.1 = some (p.2, []) := by decide +kernel

theorem test_decode_arithmetic_3 :
    ∀ p ∈ ([([0b11101001, 0b00110100], .sbcImm 0x34), ([0b11101100, 0b00110100, 0b00010010], .cpxAbs 0x1234),
      ([0b11101101, 0b00110100, 0b00010010], .sbcAbs 0x1234), ([0b11101110, 0b00110100, 0b00010010], .incAbs 0x1234),
      ([0b11110001, 0b00110100], .sbcIndY 0x34), ([0b11110101, 0b00110100], .sbcZpX 0x34),
      ([0b11110110, 0b00110100], .incZpX 0x34), ([0b11111001, 0b00110100, 0b00010010], .sbcAbsY 0x1234),
      ([0b11111101, 0b00110100, 0b00010010], .sbcAbsX 0x1234), ([0b11111110, 0b00110100, 0b00010010], .incAbsX 0x1234)] : List (List Byte × Instr)),
      decode p.1 = some (p.2, []) := by decide +kernel

theorem test_decode_logic_shift_1 :
    ∀ p ∈ ([([0b00000001, 0b00110100], .oraIndX 0x34), ([0b00000101, 0b00110100], .oraZp 0x34),
      ([0b00000110, 0b00110100], .aslZp 0x34), ([0b00001001, 0b00110100], .oraImm 0x34),
      ([0b00001010], .aslAcc), ([0b00001101, 0b00110100, 0b00010010], .oraAbs 0x1234),
      ([0b00001110, 0b00110100, 0b00010010], .aslAbs 0x1234), ([0b00010001, 0b00110100], .oraIndY 0x34),
      ([0b00010101, 0b00110100], .oraZpX 0x34), ([0b00010110, 0b00110100], .aslZpX 0x34),
      ([0b00011001, 0b00110100, 0b00010010], .oraAbsY 0x1234), ([0b00011101, 0b00110100, 0b00010010], .oraAbsX 0x1234),
      ([0b00011110, 0b00110100, 0b00010010], .aslAbsX 0x1234), ([0b00100001, 0b00110100], .andIndX 0x34),
      ([0b00100100, 0b00110100], .bitZp 0x34), ([0b00100101, 0b00110100], .andZp 0x34)] : List (List Byte × Instr)),
      decode p.1 = some (p.2, []) := by decide +kernel

theorem test_decode_logic_shift_2 :
    ∀ p ∈ ([([0b00100110, 0b00110100], .rolZp 0x34), ([0b00101001, 0b00110100], .andImm 0x34),
      ([0b00101010], .rolAcc), ([0b00101100, 0b00110100, 0b00010010], .bitAbs 0x1234),
      ([0b00101101, 0b00110100, 0b00010010], .andAbs 0x1234), ([0b00101110, 0b00110100, 0b00010010], .rolAbs 0x1234),
      ([0b00110001, 0b00110100], .andIndY 0x34), ([0b00110101, 0b00110100], .andZpX 0x34),
      ([0b00110110, 0b00110100], .rolZpX 0x34), ([0b00111001, 0b00110100, 0b00010010], .andAbsY 0x1234),
      ([0b00111101, 0b00110100, 0b00010010], .andAbsX 0x1234), ([0b00111110, 0b00110100, 0b00010010], .rolAbsX 0x1234),
      ([0b01000001, 0b00110100], .eorIndX 0x34), ([0b01000101, 0b00110100], .eorZp 0x34),
      ([0b01000110, 0b00110100], .lsrZp 0x34), ([0b01001001, 0b00110100], .eorImm 0x34)] : List (List Byte × Instr)),
      decode p.1 = some (p.2, []) := by decide +kernel

theorem test_decode_logic_shift_3 :
    ∀ p ∈ ([([0b01001010], .lsrAcc), ([0b01001101, 0b00110100, 0b00010010], .eorAbs 0x1234),
      ([0b01001110, 0b00110100, 0b00010010], .lsrAbs 0x1234), ([0b01010001, 0b00110100], .eorIndY 0x34),
      ([0b01010101, 0b00110100], .eorZpX 0x34), ([0b01010110, 0b00110100], .lsrZpX 0x34),
      ([0b01011001, 0b00110100, 0b00010010], .eorAbsY 0x1234), ([0b01011101, 0b00110100, 0b00010010], .eorAbsX 0x1234),
      ([0b01011110, 0b00110100, 0b00010010], .lsrAbsX 0x1234), ([0b01100110, 0b00110100], .rorZp 0x34),
      ([0b01101010], .rorAcc), ([0b01101110, 0b00110100, 0b00010010], .rorAbs 0x1234),
      ([0b01110110, 0b00110100], .rorZpX 0x34), ([0b01111110, 0b00110100, 0b00010010], .rorAbsX 0x1234)] : List (List Byte × Instr)),
      decode p.1 = some (p.2, []) := by decide +kernel

theorem test_decode_control_1 :
    ∀ p ∈ ([([0b00000000], .brk), ([0b00010000, 0b11111011], .bpl (-5)),
      ([0b00100000, 0b00110100, 0b00010010], .jsrAbs 0x1234), ([0b00110000, 0b11111011], .bmi (-5)),
      ([0b01000000], .rti), ([0b01001100, 0b00110100, 0b00010010], .jmpAbs 0x1234),
      ([0b01010000, 0b11111011], .bvc (-5)), ([0b01100000], .rts),
      ([0b01101100, 0b00110100, 0b00010010], .jmpInd 0x1234), ([0b01110000, 0b11111011], .bvs (-5)),
      ([0b10010000, 0b11111011], .bcc (-5)), ([0b10110000, 0b11111011], .bcs (-5)),
      ([0b11010000, 0b11111011], .bne (-5)), ([0b11110000, 0b11111011], .beq (-5))] : List (List Byte × Instr)),
      decode p.1 = some (p.2, []) := by decide +kernel

theorem test_decode_flags_1 :
    ∀ p ∈ ([([0b00011000], .clc), ([0b00111000], .sec),
      ([0b01011000], .cli), ([0b01111000], .sei),
      ([0b10111000], .clv), ([0b11011000], .cld),
      ([0b11101010], .nop), ([0b11111000], .sed)] : List (List Byte × Instr)),
      decode p.1 = some (p.2, []) := by decide +kernel

/-- An illegal opcode has no instruction (R76), and a list that ends inside an instruction has none. -/
theorem test_decode_refuses : decode [0x02] = none ∧ decode [0xFF, 0x00] = none ∧ decode [0x4C, 0x00] = none := by decide +kernel

/-- Table words are numbered from the first byte up: $8D $20 $D0 is `STA $D020` (R78). -/
theorem test_table_word : decodeTableWord 24 0xD0208D = some (.staAbs 0xD020) ∧ decodeTableWord 8 0xAD = some (.ldaAbs 0) := by
  decide +kernel

/-! ### Single steps -/

/-- The start state of the vectors (95_test_vectors.md section 1): the state after reset with every flag 0 and PC = $C000. -/
def start : State :=
  { State.reset with pc := 0xC000, p := { n := false, v := false, d := false, i := false, z := false, c := false } }

/-- A state with RAM cells set. -/
def withRam (s : State) : List (Word × Byte) → State
  | [] => s
  | (a, v) :: r => withRam (setRam s a v) r

/-- The flags of a status byte, by the bits of R23. -/
def flags (v : Byte) : Flags := flagsOf v

/-- The outcome is the next state `e`. -/
def isNext (o : Host.Outcome State Fault Refusal) (e : State) : Bool :=
  match o with
  | .next t => decide (t = e)
  | _ => false

/-- V41.1: LDA # zero. -/
theorem test_V41_1_lda_zero :
    let s := withRam ({ start with a := 0x55 }) [(0xC000, 0xA9), (0xC001, 0x00)]
    isNext (cpuStep s) ({ s with a := 0x00, p := flags 0x22, pc := 0xC002, stepCycles := 2 }) = true := by decide +kernel

/-- V41.4: LDA zp,X wraps in page 0. -/
theorem test_V41_4_lda_zp_x_wraps_in_page_0 :
    let s := withRam ({ start with x := 0xF5 }) [(0x0005, 0x77), (0xC000, 0xB5), (0xC001, 0x10)]
    isNext (cpuStep s) ({ s with a := 0x77, pc := 0xC002, stepCycles := 4 }) = true := by decide +kernel

/-- V41.6: LDA abs,X page cross (+1). -/
theorem test_V41_6_lda_abs_x_page_cross_1 :
    let s := withRam ({ start with x := 0x20 }) [(0x1310, 0x99), (0xC000, 0xBD), (0xC001, 0xF0), (0xC002, 0x12)]
    isNext (cpuStep s) ({ s with a := 0x99, p := flags 0xA0, pc := 0xC003, stepCycles := 5 }) = true := by decide +kernel

/-- V41.7: LDA abs,Y wraps $FFFF->$0000. -/
theorem test_V41_7_lda_abs_y_wraps_ffff_0000 :
    let s := withRam ({ start with y := 0x12 }) [(0x0011, 0x5A), (0xC000, 0xB9), (0xC001, 0xFF), (0xC002, 0xFF)]
    isNext (cpuStep s) ({ s with a := 0x5A, pc := 0xC003, stepCycles := 5 }) = true := by decide +kernel

/-- V41.8: LDA (zp,X). -/
theorem test_V41_8_lda_zp_x :
    let s := withRam ({ start with x := 0x04 }) [(0x0024, 0x34), (0x0025, 0x12), (0x1234, 0x81), (0xC000, 0xA1), (0xC001, 0x20)]
    isNext (cpuStep s) ({ s with a := 0x81, p := flags 0xA0, pc := 0xC002, stepCycles := 6 }) = true := by decide +kernel

/-- V41.9: LDA (zp,X): pointer at $FF wraps; its high byte and the EA $0000 are read from the port (DDR). -/
theorem test_V41_9_lda_zp_x_pointer_at_ff_wraps :
    let s := withRam ({ start with x := 0x00 }) [(0x00FF, 0x00), (0x0000, 0x56), (0xC000, 0xA1), (0xC001, 0xFF)]
    isNext (cpuStep s) ({ s with p := flags 0x22, pc := 0xC002, stepCycles := 6 }) = true := by decide +kernel

/-- V41.10: LDA (zp),Y page cross (+1). -/
theorem test_V41_10_lda_zp_y_page_cross_1 :
    let s := withRam ({ start with y := 0x10 }) [(0x0020, 0xF8), (0x0021, 0x12), (0x1308, 0x3C), (0xC000, 0xB1), (0xC001, 0x20)]
    isNext (cpuStep s) ({ s with a := 0x3C, pc := 0xC002, stepCycles := 6 }) = true := by decide +kernel

/-- V41.12: LDX zp,Y: $FF + 2 wraps to $0001, which reads the port. -/
theorem test_V41_12_ldx_zp_y_ff_2_wraps_to_0001 :
    let s := withRam ({ start with y := 0x02 }) [(0xC000, 0xB6), (0xC001, 0xFF)]
    isNext (cpuStep s) ({ s with x := 0xFF, p := flags 0xA0, pc := 0xC002, stepCycles := 4 }) = true := by decide +kernel

/-- V41.13: LDX abs,Y cross (+1). -/
theorem test_V41_13_ldx_abs_y_cross_1 :
    let s := withRam ({ start with y := 0xFF }) [(0x12FE, 0xFF), (0xC000, 0xBE), (0xC001, 0xFF), (0xC002, 0x11)]
    isNext (cpuStep s) ({ s with x := 0xFF, p := flags 0xA0, pc := 0xC003, stepCycles := 5 }) = true := by decide +kernel

/-- V41.14: LDY abs,X. -/
theorem test_V41_14_ldy_abs_x :
    let s := withRam ({ start with x := 0x01 }) [(0x1201, 0x00), (0xC000, 0xBC), (0xC001, 0x00), (0xC002, 0x12)]
    isNext (cpuStep s) ({ s with p := flags 0x22, pc := 0xC003, stepCycles := 4 }) = true := by decide +kernel

/-- V41.15: STA abs,X page cross: fixed 5. -/
theorem test_V41_15_sta_abs_x_page_cross_fixed_5 :
    let s := withRam ({ start with a := 0x11, x := 0x20 }) [(0xC000, 0x9D), (0xC001, 0xF0), (0xC002, 0x12)]
    isNext (cpuStep s) (withRam { s with pc := 0xC003, stepCycles := 5 } [(0x1310, 0x11)]) = true := by decide +kernel

/-- V41.16: STA (zp),Y: fixed 6. -/
theorem test_V41_16_sta_zp_y_fixed_6 :
    let s := withRam ({ start with a := 0x22, y := 0x10 }) [(0x0020, 0xF8), (0x0021, 0x12), (0xC000, 0x91), (0xC001, 0x20)]
    isNext (cpuStep s) (withRam { s with pc := 0xC002, stepCycles := 6 } [(0x1308, 0x22)]) = true := by decide +kernel

/-- V41.17: STA to $A000 under BASIC ROM. -/
theorem test_V41_17_sta_to_a000_under_basic_rom :
    let s := withRam ({ start with a := 0x5A }) [(0xC000, 0x8D), (0xC001, 0x00), (0xC002, 0xA0)]
    isNext (cpuStep s) (withRam { s with pc := 0xC003, stepCycles := 4 } [(0xA000, 0x5A)]) = true := by decide +kernel

/-- V41.19: STX zp,Y wraps. -/
theorem test_V41_19_stx_zp_y_wraps :
    let s := withRam ({ start with x := 0x33, y := 0x20 }) [(0xC000, 0x96), (0xC001, 0xF0)]
    isNext (cpuStep s) (withRam { s with pc := 0xC002, stepCycles := 4 } [(0x0010, 0x33)]) = true := by decide +kernel

/-- V41.21: STA does not change flags. -/
theorem test_V41_21_sta_does_not_change_flags :
    let s := withRam ({ start with a := 0x00, p := flags 0xA3 }) [(0xC000, 0x85), (0xC001, 0x10)]
    isNext (cpuStep s) (withRam { s with pc := 0xC002, stepCycles := 3 } [(0x0010, 0x00)]) = true := by decide +kernel

/-- V42.1: TAX negative. -/
theorem test_V42_1_tax_negative :
    let s := withRam ({ start with a := 0x80 }) [(0xC000, 0xAA)]
    isNext (cpuStep s) ({ s with x := 0x80, p := flags 0xA0, pc := 0xC001, stepCycles := 2 }) = true := by decide +kernel

/-- V42.2: TAY zero. -/
theorem test_V42_2_tay_zero :
    let s := withRam ({ start with a := 0x00, y := 0x12 }) [(0xC000, 0xA8)]
    isNext (cpuStep s) ({ s with y := 0x00, p := flags 0x22, pc := 0xC001, stepCycles := 2 }) = true := by decide +kernel

/-- V42.3: TXA. -/
theorem test_V42_3_txa :
    let s := withRam ({ start with x := 0x01, a := 0xFF }) [(0xC000, 0x8A)]
    isNext (cpuStep s) ({ s with a := 0x01, pc := 0xC001, stepCycles := 2 }) = true := by decide +kernel

/-- V42.4: TYA. -/
theorem test_V42_4_tya :
    let s := withRam ({ start with y := 0x00, a := 0x01 }) [(0xC000, 0x98)]
    isNext (cpuStep s) ({ s with a := 0x00, p := flags 0x22, pc := 0xC001, stepCycles := 2 }) = true := by decide +kernel

/-- V42.5: TSX. -/
theorem test_V42_5_tsx :
    let s := withRam ({ start with sp := 0xFD }) [(0xC000, 0xBA)]
    isNext (cpuStep s) ({ s with x := 0xFD, p := flags 0xA0, pc := 0xC001, stepCycles := 2 }) = true := by decide +kernel

/-- V42.6: TXS changes no flag. -/
theorem test_V42_6_txs_changes_no_flag :
    let s := withRam ({ start with x := 0x00, p := flags 0x20 }) [(0xC000, 0x9A)]
    isNext (cpuStep s) ({ s with sp := 0x00, pc := 0xC001, stepCycles := 2 }) = true := by decide +kernel

/-- V42.7: PHA at S=$00 wraps. -/
theorem test_V42_7_pha_at_s_00_wraps :
    let s := withRam ({ start with a := 0x77, sp := 0x00 }) [(0xC000, 0x48)]
    isNext (cpuStep s) (withRam { s with sp := 0xFF, pc := 0xC001, stepCycles := 3 } [(0x0100, 0x77)]) = true := by decide +kernel

/-- V42.8: PHP pushes B=1 and bit 5=1. -/
theorem test_V42_8_php_pushes_b_1_and_bit_5_1 :
    let s := withRam ({ start with p := flags 0xC3 }) [(0xC000, 0x08)]
    isNext (cpuStep s) (withRam { s with sp := 0xFC, pc := 0xC001, stepCycles := 3 } [(0x01FD, 0xF3)]) = true := by decide +kernel

/-- V42.10: PLA at S=$FF wraps to $0100. -/
theorem test_V42_10_pla_at_s_ff_wraps_to_0100 :
    let s := withRam ({ start with sp := 0xFF }) [(0x0100, 0x90), (0xC000, 0x68)]
    isNext (cpuStep s) ({ s with a := 0x90, sp := 0x00, p := flags 0xA0, pc := 0xC001, stepCycles := 4 }) = true := by decide +kernel

/-- V42.11: PLP $FF: B and bit 5 dropped. -/
theorem test_V42_11_plp_ff_b_and_bit_5_dropped :
    let s := withRam ({ start with sp := 0xFC }) [(0x01FD, 0xFF), (0xC000, 0x28)]
    isNext (cpuStep s) ({ s with sp := 0xFD, p := flags 0xEF, pc := 0xC001, stepCycles := 4 }) = true := by decide +kernel

/-- V43.4: ADC binary $80+$80. -/
theorem test_V43_4_adc_binary_80_80 :
    let s := withRam ({ start with a := 0x80 }) [(0xC000, 0x69), (0xC001, 0x80)]
    isNext (cpuStep s) ({ s with a := 0x00, p := flags 0x63, pc := 0xC002, stepCycles := 2 }) = true := by decide +kernel

/-- V43.5: ADC decimal $15+$27 (scenario 6). -/
theorem test_V43_5_adc_decimal_15_27_scenario_6 :
    let s := withRam ({ start with a := 0x15, p := flags 0x28 }) [(0xC000, 0x69), (0xC001, 0x27)]
    isNext (cpuStep s) ({ s with a := 0x42, pc := 0xC002, stepCycles := 2 }) = true := by decide +kernel

/-- V43.13: SBC binary $80-$01 overflow. -/
theorem test_V43_13_sbc_binary_80_01_overflow :
    let s := withRam ({ start with a := 0x80, p := flags 0x21 }) [(0xC000, 0xE9), (0xC001, 0x01)]
    isNext (cpuStep s) ({ s with a := 0x7F, p := flags 0x61, pc := 0xC002, stepCycles := 2 }) = true := by decide +kernel

/-- V43.14: SBC decimal $00-$01. -/
theorem test_V43_14_sbc_decimal_00_01 :
    let s := withRam ({ start with a := 0x00, p := flags 0x29 }) [(0xC000, 0xE9), (0xC001, 0x01)]
    isNext (cpuStep s) ({ s with a := 0x99, p := flags 0xA8, pc := 0xC002, stepCycles := 2 }) = true := by decide +kernel

/-- V43.18: CMP equal. -/
theorem test_V43_18_cmp_equal :
    let s := withRam ({ start with a := 0x40 }) [(0xC000, 0xC9), (0xC001, 0x40)]
    isNext (cpuStep s) ({ s with p := flags 0x23, pc := 0xC002, stepCycles := 2 }) = true := by decide +kernel

/-- V43.21: CMP ignores D and keeps V. -/
theorem test_V43_21_cmp_ignores_d_and_keeps_v :
    let s := withRam ({ start with a := 0x10, p := flags 0x68 }) [(0xC000, 0xC9), (0xC001, 0x20)]
    isNext (cpuStep s) ({ s with p := flags 0xE8, pc := 0xC002, stepCycles := 2 }) = true := by decide +kernel

/-- V43.22: CPX equal. -/
theorem test_V43_22_cpx_equal :
    let s := withRam ({ start with x := 0x0A }) [(0xC000, 0xE0), (0xC001, 0x0A)]
    isNext (cpuStep s) ({ s with p := flags 0x23, pc := 0xC002, stepCycles := 2 }) = true := by decide +kernel

/-- V43.23: CPY less. -/
theorem test_V43_23_cpy_less :
    let s := withRam ({ start with y := 0x05 }) [(0xC000, 0xC0), (0xC001, 0x10)]
    isNext (cpuStep s) ({ s with p := flags 0xA0, pc := 0xC002, stepCycles := 2 }) = true := by decide +kernel

/-- V43.24: INC zp $FF wraps. -/
theorem test_V43_24_inc_zp_ff_wraps :
    let s := withRam (start) [(0x0010, 0xFF), (0xC000, 0xE6), (0xC001, 0x10)]
    isNext (cpuStep s) (withRam { s with p := flags 0x22, pc := 0xC002, stepCycles := 5 } [(0x0010, 0x00)]) = true := by decide +kernel

/-- V43.25: INC abs,X fixed 7. -/
theorem test_V43_25_inc_abs_x_fixed_7 :
    let s := withRam ({ start with x := 0x01 }) [(0x1300, 0x7F), (0xC000, 0xFE), (0xC001, 0xFF), (0xC002, 0x12)]
    isNext (cpuStep s) (withRam { s with p := flags 0xA0, pc := 0xC003, stepCycles := 7 } [(0x1300, 0x80)]) = true := by decide +kernel

/-- V43.26: DEC zp $00 wraps. -/
theorem test_V43_26_dec_zp_00_wraps :
    let s := withRam (start) [(0x0010, 0x00), (0xC000, 0xC6), (0xC001, 0x10)]
    isNext (cpuStep s) (withRam { s with p := flags 0xA0, pc := 0xC002, stepCycles := 5 } [(0x0010, 0xFF)]) = true := by decide +kernel

/-- V43.27: INX $FF. -/
theorem test_V43_27_inx_ff :
    let s := withRam ({ start with x := 0xFF }) [(0xC000, 0xE8)]
    isNext (cpuStep s) ({ s with x := 0x00, p := flags 0x22, pc := 0xC001, stepCycles := 2 }) = true := by decide +kernel

/-- V43.28: INY. -/
theorem test_V43_28_iny :
    let s := withRam ({ start with y := 0x7F }) [(0xC000, 0xC8)]
    isNext (cpuStep s) ({ s with y := 0x80, p := flags 0xA0, pc := 0xC001, stepCycles := 2 }) = true := by decide +kernel

/-- V43.29: DEX to zero. -/
theorem test_V43_29_dex_to_zero :
    let s := withRam ({ start with x := 0x01 }) [(0xC000, 0xCA)]
    isNext (cpuStep s) ({ s with x := 0x00, p := flags 0x22, pc := 0xC001, stepCycles := 2 }) = true := by decide +kernel

/-- V43.30: DEY $00. -/
theorem test_V43_30_dey_00 :
    let s := withRam ({ start with y := 0x00 }) [(0xC000, 0x88)]
    isNext (cpuStep s) ({ s with y := 0xFF, p := flags 0xA0, pc := 0xC001, stepCycles := 2 }) = true := by decide +kernel

/-- V44.1: AND #. -/
theorem test_V44_1_and :
    let s := withRam ({ start with a := 0xF0 }) [(0xC000, 0x29), (0xC001, 0x3C)]
    isNext (cpuStep s) ({ s with a := 0x30, pc := 0xC002, stepCycles := 2 }) = true := by decide +kernel

/-- V44.3: ORA #. -/
theorem test_V44_3_ora :
    let s := withRam ({ start with a := 0x01 }) [(0xC000, 0x09), (0xC001, 0x80)]
    isNext (cpuStep s) ({ s with a := 0x81, p := flags 0xA0, pc := 0xC002, stepCycles := 2 }) = true := by decide +kernel

/-- V44.5: EOR #$FF complements. -/
theorem test_V44_5_eor_ff_complements :
    let s := withRam ({ start with a := 0x0F }) [(0xC000, 0x49), (0xC001, 0xFF)]
    isNext (cpuStep s) ({ s with a := 0xF0, p := flags 0xA0, pc := 0xC002, stepCycles := 2 }) = true := by decide +kernel

/-- V44.6: BIT zp: N,V from M. -/
theorem test_V44_6_bit_zp_n_v_from_m :
    let s := withRam ({ start with a := 0x01 }) [(0x0010, 0xC0), (0xC000, 0x24), (0xC001, 0x10)]
    isNext (cpuStep s) ({ s with p := flags 0xE2, pc := 0xC002, stepCycles := 3 }) = true := by decide +kernel

/-- V44.7: BIT abs: Z=0, N=V=0. -/
theorem test_V44_7_bit_abs_z_0_n_v_0 :
    let s := withRam ({ start with a := 0x3F, p := flags 0xE0 }) [(0x1234, 0x01), (0xC000, 0x2C), (0xC001, 0x34), (0xC002, 0x12)]
    isNext (cpuStep s) ({ s with p := flags 0x20, pc := 0xC003, stepCycles := 4 }) = true := by decide +kernel

/-- V44.8: ASL A. -/
theorem test_V44_8_asl_a :
    let s := withRam ({ start with a := 0x81 }) [(0xC000, 0x0A)]
    isNext (cpuStep s) ({ s with a := 0x02, p := flags 0x21, pc := 0xC001, stepCycles := 2 }) = true := by decide +kernel

/-- V44.9: ASL zp $80. -/
theorem test_V44_9_asl_zp_80 :
    let s := withRam (start) [(0x0010, 0x80), (0xC000, 0x06), (0xC001, 0x10)]
    isNext (cpuStep s) (withRam { s with p := flags 0x23, pc := 0xC002, stepCycles := 5 } [(0x0010, 0x00)]) = true := by decide +kernel

/-- V44.10: LSR A. -/
theorem test_V44_10_lsr_a :
    let s := withRam ({ start with a := 0x03 }) [(0xC000, 0x4A)]
    isNext (cpuStep s) ({ s with a := 0x01, p := flags 0x21, pc := 0xC001, stepCycles := 2 }) = true := by decide +kernel

/-- V44.12: ROL A with C. -/
theorem test_V44_12_rol_a_with_c :
    let s := withRam ({ start with a := 0x40, p := flags 0x21 }) [(0xC000, 0x2A)]
    isNext (cpuStep s) ({ s with a := 0x81, p := flags 0xA0, pc := 0xC001, stepCycles := 2 }) = true := by decide +kernel

/-- V44.13: ROL zp $80 no C. -/
theorem test_V44_13_rol_zp_80_no_c :
    let s := withRam (start) [(0x0010, 0x80), (0xC000, 0x26), (0xC001, 0x10)]
    isNext (cpuStep s) (withRam { s with p := flags 0x23, pc := 0xC002, stepCycles := 5 } [(0x0010, 0x00)]) = true := by decide +kernel

/-- V44.14: ROR A with C. -/
theorem test_V44_14_ror_a_with_c :
    let s := withRam ({ start with a := 0x01, p := flags 0x21 }) [(0xC000, 0x6A)]
    isNext (cpuStep s) ({ s with a := 0x80, p := flags 0xA1, pc := 0xC001, stepCycles := 2 }) = true := by decide +kernel

/-- V44.15: ROR abs,X fixed 7. -/
theorem test_V44_15_ror_abs_x_fixed_7 :
    let s := withRam ({ start with x := 0x10, p := flags 0x20 }) [(0x1310, 0x02), (0xC000, 0x7E), (0xC001, 0x00), (0xC002, 0x13)]
    isNext (cpuStep s) (withRam { s with pc := 0xC003, stepCycles := 7 } [(0x1310, 0x01)]) = true := by decide +kernel

/-- V45.1: JMP abs. -/
theorem test_V45_1_jmp_abs :
    let s := withRam (start) [(0xC000, 0x4C), (0xC001, 0x34), (0xC002, 0x12)]
    isNext (cpuStep s) ({ s with pc := 0x1234, stepCycles := 3 }) = true := by decide +kernel

/-- V45.2: JMP (ind). -/
theorem test_V45_2_jmp_ind :
    let s := withRam (start) [(0x0314, 0x31), (0x0315, 0xEA), (0xC000, 0x6C), (0xC001, 0x14), (0xC002, 0x03)]
    isNext (cpuStep s) ({ s with pc := 0xEA31, stepCycles := 5 }) = true := by decide +kernel

/-- V45.3: JMP ($10FF) page bug. -/
theorem test_V45_3_jmp_10ff_page_bug :
    let s := withRam (start) [(0x10FF, 0x78), (0x1000, 0x56), (0x1100, 0x99), (0xC000, 0x6C), (0xC001, 0xFF), (0xC002, 0x10)]
    isNext (cpuStep s) ({ s with pc := 0x5678, stepCycles := 5 }) = true := by decide +kernel

/-- V45.5: JSR at S=$00 wraps. -/
theorem test_V45_5_jsr_at_s_00_wraps :
    let s := withRam ({ start with sp := 0x00 }) [(0xC000, 0x20), (0xC001, 0x00), (0xC002, 0xC1)]
    isNext (cpuStep s) (withRam { s with sp := 0xFE, pc := 0xC100, stepCycles := 6 } [(0x0100, 0xC0), (0x01FF, 0x02)]) = true := by decide +kernel

/-- V45.7: RTS from $FFFF. -/
theorem test_V45_7_rts_from_ffff :
    let s := withRam ({ start with sp := 0xFB }) [(0x01FC, 0xFF), (0x01FD, 0xFF), (0xC000, 0x60)]
    isNext (cpuStep s) ({ s with sp := 0xFD, pc := 0x0000, stepCycles := 6 }) = true := by decide +kernel

/-- V45.8: RTI restores flags, no +1. -/
theorem test_V45_8_rti_restores_flags_no_1 :
    let s := withRam ({ start with sp := 0xFA, p := flags 0x24 }) [(0x01FB, 0x20), (0x01FC, 0x34), (0x01FD, 0x12), (0xC000, 0x40)]
    isNext (cpuStep s) ({ s with sp := 0xFD, p := flags 0x20, pc := 0x1234, stepCycles := 6 }) = true := by decide +kernel

/-- V45.11: BRK with I=1 still runs. -/
theorem test_V45_11_brk_with_i_1_still_runs :
    let s := withRam ({ start with sp := 0xFD, p := flags 0x2D }) [(0xC000, 0x00), (0xC001, 0xEA)]
    isNext (cpuStep s) (withRam { s with sp := 0xFA, pc := 0xFF48, stepCycles := 7 } [(0x01FD, 0xC0), (0x01FC, 0x02), (0x01FB, 0x3D)]) = true := by decide +kernel

/-- V45.12: BPL taken same page. -/
theorem test_V45_12_bpl_taken_same_page :
    let s := withRam (start) [(0xC000, 0x10), (0xC001, 0x02)]
    isNext (cpuStep s) ({ s with pc := 0xC004, stepCycles := 3 }) = true := by decide +kernel

/-- V45.13: BMI not taken. -/
theorem test_V45_13_bmi_not_taken :
    let s := withRam (start) [(0xC000, 0x30), (0xC001, 0x02)]
    isNext (cpuStep s) ({ s with pc := 0xC002, stepCycles := 2 }) = true := by decide +kernel

/-- V45.14: BVC taken crossing. -/
theorem test_V45_14_bvc_taken_crossing :
    let s := withRam ({ start with pc := 0xC0FD }) [(0xC0FD, 0x50), (0xC0FE, 0x01)]
    isNext (cpuStep s) ({ s with pc := 0xC100, stepCycles := 4 }) = true := by decide +kernel

/-- V45.15: BVS to itself. -/
theorem test_V45_15_bvs_to_itself :
    let s := withRam ({ start with p := flags 0x60 }) [(0xC000, 0x70), (0xC001, 0xFE)]
    isNext (cpuStep s) ({ s with pc := 0xC000, stepCycles := 3 }) = true := by decide +kernel

/-- V45.16: BCC forward. -/
theorem test_V45_16_bcc_forward :
    let s := withRam (start) [(0xC000, 0x90), (0xC001, 0x10)]
    isNext (cpuStep s) ({ s with pc := 0xC012, stepCycles := 3 }) = true := by decide +kernel

/-- V45.17: BCS backward crossing. -/
theorem test_V45_17_bcs_backward_crossing :
    let s := withRam ({ start with p := flags 0x21 }) [(0xC000, 0xB0), (0xC001, 0x80)]
    isNext (cpuStep s) ({ s with pc := 0xBF82, stepCycles := 4 }) = true := by decide +kernel

/-- V45.18: BNE backward. -/
theorem test_V45_18_bne_backward :
    let s := withRam ({ start with pc := 0xC005 }) [(0xC005, 0xD0), (0xC006, 0xFB)]
    isNext (cpuStep s) ({ s with pc := 0xC002, stepCycles := 3 }) = true := by decide +kernel

/-- V45.19: BEQ wraps past $FFFF. -/
theorem test_V45_19_beq_wraps_past_ffff :
    let s := withRam ({ start with pc := 0xFFF0, p := flags 0x22, ddr := 0x07, data := 0x05 }) [(0xFFF0, 0xF0), (0xFFF1, 0x7F)]
    isNext (cpuStep s) ({ s with pc := 0x0071, stepCycles := 4 }) = true := by decide +kernel

/-- V46.1: CLC. -/
theorem test_V46_1_clc :
    let s := withRam ({ start with p := flags 0x21 }) [(0xC000, 0x18)]
    isNext (cpuStep s) ({ s with p := flags 0x20, pc := 0xC001, stepCycles := 2 }) = true := by decide +kernel

/-- V46.2: SEC. -/
theorem test_V46_2_sec :
    let s := withRam (start) [(0xC000, 0x38)]
    isNext (cpuStep s) ({ s with p := flags 0x21, pc := 0xC001, stepCycles := 2 }) = true := by decide +kernel

/-- V46.3: CLD. -/
theorem test_V46_3_cld :
    let s := withRam ({ start with p := flags 0x28 }) [(0xC000, 0xD8)]
    isNext (cpuStep s) ({ s with p := flags 0x20, pc := 0xC001, stepCycles := 2 }) = true := by decide +kernel

/-- V46.4: SED. -/
theorem test_V46_4_sed :
    let s := withRam (start) [(0xC000, 0xF8)]
    isNext (cpuStep s) ({ s with p := flags 0x28, pc := 0xC001, stepCycles := 2 }) = true := by decide +kernel

/-- V46.5: CLI. -/
theorem test_V46_5_cli :
    let s := withRam ({ start with p := flags 0x24 }) [(0xC000, 0x58)]
    isNext (cpuStep s) ({ s with p := flags 0x20, pc := 0xC001, stepCycles := 2 }) = true := by decide +kernel

/-- V46.6: SEI. -/
theorem test_V46_6_sei :
    let s := withRam (start) [(0xC000, 0x78)]
    isNext (cpuStep s) ({ s with p := flags 0x24, pc := 0xC001, stepCycles := 2 }) = true := by decide +kernel

/-- V46.7: CLV. -/
theorem test_V46_7_clv :
    let s := withRam ({ start with p := flags 0x60 }) [(0xC000, 0xB8)]
    isNext (cpuStep s) ({ s with p := flags 0x20, pc := 0xC001, stepCycles := 2 }) = true := by decide +kernel

/-- V46.8: NOP. -/
theorem test_V46_8_nop :
    let s := withRam ({ start with p := flags 0xE3 }) [(0xC000, 0xEA)]
    isNext (cpuStep s) ({ s with pc := 0xC001, stepCycles := 2 }) = true := by decide +kernel

/-- V60.1: NMI service. -/
theorem test_V60_1_nmi_service :
    let s := withRam ({ start with nmiPending := true, sp := 0xFD, p := flags 0x20 }) [(0xC000, 0xEA)]
    isNext (cpuStep s) (withRam { s with sp := 0xFA, p := flags 0x24, pc := 0xFE43, nmiPending := false, stepCycles := 7 } [(0x01FD, 0xC0), (0x01FC, 0x00), (0x01FB, 0x20)]) = true := by decide +kernel

/-- V60.2: IRQ service, I=0. -/
theorem test_V60_2_irq_service_i_0 :
    let s := withRam ({ start with irqPending := true, sp := 0xFD, p := flags 0x29 }) [(0xC000, 0xEA)]
    isNext (cpuStep s) (withRam { s with sp := 0xFA, p := flags 0x2D, pc := 0xFF48, irqPending := false, stepCycles := 7 } [(0x01FD, 0xC0), (0x01FC, 0x00), (0x01FB, 0x29)]) = true := by decide +kernel

/-- V60.3: IRQ pending, I=1: not taken. -/
theorem test_V60_3_irq_pending_i_1_not_taken :
    let s := withRam ({ start with irqPending := true, p := flags 0x24 }) [(0xC000, 0xEA)]
    isNext (cpuStep s) ({ s with pc := 0xC001, stepCycles := 2 }) = true := by decide +kernel

/-- V60.4: NMI and IRQ both pending. -/
theorem test_V60_4_nmi_and_irq_both_pending :
    let s := withRam ({ start with nmiPending := true, irqPending := true, p := flags 0x20 }) [(0xC000, 0xEA)]
    isNext (cpuStep s) (withRam { s with sp := 0xFA, p := flags 0x24, pc := 0xFE43, nmiPending := false, stepCycles := 7 } [(0x01FD, 0xC0), (0x01FC, 0x00), (0x01FB, 0x20)]) = true := by decide +kernel

/-- V60.6: illegal opcode $02. -/
theorem test_V60_6_illegal_opcode_02 :
    let s := withRam ({ start with a := 0x12 }) [(0xC000, 0x02)]
    isNext (cpuStep s) ({ s with fault := some { reason := .undefinedOpcode, opcode := 0x02, address := 0xC000 }, stepCycles := 0 }) = true := by decide +kernel

/-- V60.8: pending IRQ before BRK at PC. -/
theorem test_V60_8_pending_irq_before_brk_at_pc :
    let s := withRam ({ start with irqPending := true, p := flags 0x20 }) [(0xC000, 0x00), (0xC001, 0x00)]
    isNext (cpuStep s) (withRam { s with sp := 0xFA, p := flags 0x24, pc := 0xFF48, irqPending := false, stepCycles := 7 } [(0x01FD, 0xC0), (0x01FC, 0x00), (0x01FB, 0x20)]) = true := by decide +kernel

/-! ### The port, the banks and IO (95_test_vectors.md sections 2 and 3.8) -/

/-- V20.1 to V20.5: what $0001 reads, and the configuration, for five port states. -/
theorem test_V20_port_reads :
    ([(0x00, 0x00, 0xFF, 7), (0x07, 0x05, 0xFD, 5), (0x2F, 0x37, 0xF7, 7), (0xFF, 0x00, 0x00, 0), (0x2F, 0x35, 0xF5, 5)] :
        List (Byte × Byte × Byte × BitVec 3)).all (fun r =>
      let s := { start with ddr := r.1, data := r.2.1 }
      decide ((memRead s 0x0000).1 = r.1 ∧ (memRead s 0x0001).1 = r.2.2.1 ∧ bankCfg s = r.2.2.2)) = true := by
  decide +kernel

/-- V20.6: a write of $0001 sets DATA and the RAM byte; all bits are inputs, so the configuration stays 7. -/
theorem test_V20_6_port_write :
    let t := memWrite start 0x0001 0x30
    t.data = 0x30 ∧ ramByte t 0x0001 = 0x30 ∧ bankCfg t = 7 := by decide +kernel

/-- V20.9, V20.10: pages with no device read $FF, and a write there changes nothing. -/
theorem test_V20_9_unmapped_io :
    ([0xD400, 0xD7FF, 0xDE00, 0xDF80] : List Word).all (fun a => decide ((memRead start a).1 = 0xFF)) = true ∧
    memWrite start 0xD400 0x12 = start := by decide +kernel

/-- V20.8, V20.12: unused VIC-II indices read $FF; $DC10 is port A of CIA-A. -/
theorem test_V20_12_mirrors :
    (memRead start 0xD02F).1 = 0xFF ∧ (memRead start 0xD03F).1 = 0xFF ∧
    (memWrite start 0xDC10 0x42).ciaA.pra = 0x42 := by decide +kernel

/-- V20.11: a color RAM write keeps the low four bits and does not reach RAM. -/
theorem test_V20_11_color_write :
    let t := memWrite start 0xD820 0xF7
    colorCell t 0x20 = 0x7 ∧ ramByte t 0xD820 = 0 := by decide +kernel

/-- E1.2, E1.3: a write under BASIC ROM lands in RAM and is read once RAM is mapped there. -/
theorem test_E1_2_write_under_basic :
    let t := memWrite start 0xA000 0x5A
    (memRead t 0xA000).1 = 0xBB ∧ ramByte t 0xA000 = 0x5A ∧
    (memRead (memWrite (memWrite t 0x0000 0x07) 0x0001 0x06) 0xA000).1 = 0x5A := by decide +kernel

/-- E2: what $A000, $D000 and $E000 read for each port value 0 to 7. -/
theorem test_E2_visibility :
    let s := withRam { start with vic := { Vic.reset with vreg := Vic.reset.vreg.set 0 0x55 } }
      [(0xA000, 0x1A), (0xD000, 0x1D), (0xE000, 0x1E)]
    ([(0, 0x1A, 0x1D, 0x1E), (1, 0x1A, 0xCC, 0x1E), (2, 0x1A, 0xCC, 0xEE), (3, 0xBB, 0xCC, 0xEE),
        (4, 0x1A, 0x1D, 0x1E), (5, 0x1A, 0x55, 0x1E), (6, 0x1A, 0x55, 0xEE), (7, 0xBB, 0x55, 0xEE)] :
        List (Byte × Byte × Byte × Byte)).all (fun r =>
      let t := memWrite (memWrite s 0x0000 0x07) 0x0001 r.1
      decide ((memRead t 0xA000).1 = r.2.1 ∧ (memRead t 0xD000).1 = r.2.2.1 ∧ (memRead t 0xE000).1 = r.2.2.2)) = true := by
  decide +kernel

/-! ### VIC-II (95_test_vectors.md section 3.9) -/

/-- V61.1, V61.2, V61.4: 62 cycles stay on the line, 63 move to the next, 200 move three lines on. -/
theorem test_V61_1_lines :
    (vicTick 62 Vic.reset).raster = 0 ∧ (vicTick 62 Vic.reset).acc = 62 ∧
    (vicTick 1 (vicTick 62 Vic.reset)).raster = 1 ∧ (vicTick 200 Vic.reset).raster = 3 ∧
    (vicTick 200 Vic.reset).acc = 11 := by decide +kernel

/-- V61.5, V61.6: the compare sets latch bit 0, $D019 reads $81, and writing $FF acknowledges. -/
theorem test_V61_5_raster_interrupt :
    let v := { Vic.reset with vreg := (Vic.reset.vreg.set 0x12 0x05).set 0x1A 0x01, raster := 4, acc := 60 }
    let t := vicTick 7 v
    t.raster = 5 ∧ t.acc = 4 ∧ t.latch = 1 ∧ vicIrqLine t = true ∧ vicRead t 0x19 = 0x81 ∧
    vicRead (vicWrite t 0x19 0xFF) 0x19 = 0x00 := by decide +kernel

/-- V61.7: only the latch bits written as 1 clear. -/
theorem test_V61_7_acknowledge : (vicWrite { Vic.reset with latch := 0xF } 0x19 0x05).latch = 0xA := by decide +kernel

/-- V61.8: the wrap to line 0 makes a frame available and matches a compare of 0. -/
theorem test_V61_8_wrap :
    let t := vicTick 2 { Vic.reset with raster := 311, acc := 62 }
    t.raster = 0 ∧ t.acc = 1 ∧ t.frameAvailable = true ∧ t.latch = 1 := by decide +kernel

/-- V61.9, V61.10: $D011 and $D012 read the raster; writing them sets the compare. -/
theorem test_V61_9_raster_read :
    let v := { Vic.reset with vreg := Vic.reset.vreg.set 0x11 0x1B, raster := 300 }
    vicRead v 0x11 = 0x9B ∧ vicRead v 0x12 = 0x2C ∧
    vicCompare (vicWrite (vicWrite v 0x11 0x9B) 0x12 0x2C) = 0x12C := by decide +kernel

/-- V61.14 to V61.16: the VIC-II bank and the matrix and character bases. -/
theorem test_V61_16_bases :
    let s := { start with
      vic := { Vic.reset with vreg := Vic.reset.vreg.set 0x18 0x15 }, ciaB := { Cia.reset with ddra := 0x03, pra := 0x03 } }
    vicBank { start with ciaB := { Cia.reset with ddra := 0x03, pra := 0x02 } } = 0x4000 ∧ videoBase start = 0 ∧
    videoBase s = 0x0400 ∧ charBase s = 0x1000 := by decide +kernel

/-! ### CIAs and the keyboard (95_test_vectors.md sections 3.10 and 3.11) -/

/-- V62.1 to V62.5: loading, starting, reaching 0 without underflow, and the underflow one cycle later. -/
theorem test_V62_1_timer :
    let c1 := ciaWrite Cia.reset 4 0x10
    let c2 := ciaWrite c1 5 0x00
    let c3 := ciaTick 10 (ciaWrite c2 14 0x01)
    let c4 := ciaTick 6 c3
    let c5 := ciaTick 1 c4
    c1.taLatch = 0xFF10 ∧ c1.taCnt = 0xFFFF ∧ c2.taCnt = 0x0010 ∧ c3.taCnt = 6 ∧ c4.taCnt = 0 ∧ c4.icrLatch = 0 ∧
    c5.taCnt = 0x0010 ∧ c5.icrLatch = 1 ∧ c5.cra = 1 := by decide +kernel

/-- V62.7, V62.8: a one-shot timer stops at its underflow; reading the ICR clears it. -/
theorem test_V62_7_one_shot :
    let c := ciaTick 7 (ciaWrite { Cia.reset with taLatch := 3, taCnt := 3, icrMask := 1 } 14 0x09)
    c.taCnt = 3 ∧ c.icrLatch = 1 ∧ c.cra = 0x08 ∧ ciaLine c = true ∧ (ciaRead 0 c 13).1 = 0x81 ∧
    (ciaRead 0 (ciaRead 0 c 13).2 13).1 = 0 ∧ (ciaTick 100 c).taCnt = 3 := by decide +kernel

/-- V62.9, V62.10: a running timer keeps its counter at a high-byte write; bit 4 of a control write forces the load. -/
theorem test_V62_9_force_load :
    let c := ciaTick 5 { Cia.reset with taLatch := 0x20, taCnt := 0x20, cra := 1 }
    let d := ciaWrite c 5 0x01
    d.taLatch = 0x0120 ∧ d.taCnt = 0x001B ∧ (ciaWrite d 14 0x11).taCnt = 0x0120 ∧ (ciaWrite d 14 0x11).cra = 1 := by
  decide +kernel

/-- V62.12 to V62.14: CNT and chained inputs never count; timer B underflows with bit 1. -/
theorem test_V62_14_timer_b :
    (ciaTick 5 (ciaWrite Cia.reset 14 0x21)).taCnt = 0xFFFF ∧ (ciaTick 5 (ciaWrite Cia.reset 15 0x41)).tbCnt = 0xFFFF ∧
    (ciaTick 5 (ciaWrite Cia.reset 15 0x01)).tbCnt = 0xFFFA ∧
    (let c := ciaTick 7 { Cia.reset with tbLatch := 4, tbCnt := 3, crb := 1 }
     c.tbCnt = 4 ∧ c.icrLatch = 2) := by decide +kernel

/-- V62.15, V62.16: bit 7 of an ICR write sets or clears mask bits; unmasking a pending bit raises the line. -/
theorem test_V62_15_mask :
    let a := ciaWrite Cia.reset 13 0x83
    let b := ciaWrite a 13 0x01
    a.icrMask = 3 ∧ b.icrMask = 2 ∧ (ciaWrite b 13 0x7F).icrMask = 0 ∧
    ciaLine { Cia.reset with icrLatch := 1 } = false ∧
    ciaLine (ciaWrite { Cia.reset with icrLatch := 1 } 13 0x81) = true := by decide +kernel

/-- V62.17: an undriven port B of CIA-B reads $FF, a driven one its register. -/
theorem test_V62_17_port_b :
    ciaPortB Cia.reset = 0xFF ∧ ciaPortB { Cia.reset with ddrb := 0xFF, prb := 0x5A } = 0x5A := by decide +kernel

/-- A key matrix with the given (column, row) keys down. -/
def keysDown (ks : List (Fin 8 × Fin 8)) : Vector Byte 8 :=
  (ks.foldl (fun s k => applyEvent s { pos := .matrix k.1 k.2, down := true }) start).keys

/-- V62.18 to V62.25: what $DC01 reads, by DDRA, PRA and the keys down. -/
theorem test_V62_keyboard :
    ([(0xFF, 0x00, [], 0xFF), (0xFF, 0x7F, [(7, 7)], 0x7F), (0xFF, 0xFF, [(7, 7)], 0xFF), (0xFF, 0x00, [(7, 7)], 0x7F),
        (0xFF, 0x00, [(1, 2), (7, 7)], 0x7B), (0x00, 0x00, [(7, 7)], 0xFF), (0xFF, 0xFD, [(1, 2), (7, 7)], 0xFB),
        (0xFF, 0xFE, [(0, 1), (0, 4)], 0xED)] : List (Byte × Byte × List (Fin 8 × Fin 8) × Byte)).all (fun r =>
      decide (keyboardPort { Cia.reset with ddra := r.1, pra := r.2.1 } (keysDown r.2.2.1) = r.2.2.2)) = true := by
  decide +kernel

/-! ### The loop (95_test_vectors.md section 3.12) -/

/-- A check of the next state of an outcome. -/
def nextSat (o : Host.Outcome State Fault Refusal) (p : State → Bool) : Bool :=
  match o with
  | .next t => p t
  | _ => false

/-- V63.1, iteration 3: the NOP's two cycles underflow CIA-A's timer, and irq_pending is set after the ticks. -/
theorem test_V63_1_irq_sampled :
    nextSat (iterate (withRam { start with
        ciaA := { Cia.reset with taLatch := 4, taCnt := 0, cra := 1, icrMask := 1 } } [(0xC000, 0xEA)]))
      (fun t => decide (t.cycles = 2 ∧ t.ciaA.taCnt = 4 ∧ t.ciaA.icrLatch = 1) && t.irqPending) = true := by decide +kernel

/-- V63.5: a fatal fault ticks nothing and halts the loop (R189). -/
theorem test_V63_5_fatal :
    nextSat (iterate (withRam { start with vic := { Vic.reset with acc := 10 } } [(0xC000, 0x02)]))
      (fun t => decide (t.cycles = 0 ∧ t.vic.acc = 10) && t.halted && t.fault.isSome) = true := by decide +kernel

/-- V63.6: a RESTORE press before the frame makes its first iteration the NMI service. -/
theorem test_V63_6_restore :
    nextSat (step (withRam { start with events := [{ pos := .restore, down := true }] } [(0xC000, 0xEA)]))
      (fun t => decide (t.pc = 0xFE43 ∧ t.sp = 0xFA)) = true := by decide +kernel

/-- V63.8: a paused frame changes nothing. -/
theorem test_V63_8_paused : isNext (step { start with paused := true }) { start with paused := true } = true := by
  decide +kernel

/-- V63.7: after power-on and reset. -/
theorem test_V63_7_reset :
    State.reset.pc = 0xFCE2 ∧ State.reset.sp = 0xFD ∧ pImage false State.reset.p = 0x24 ∧ bankCfg State.reset = 7 ∧
    State.reset.cycles = 0 := by decide +kernel

/-- A word placed after reset is what the very next step runs (log 12): `LDA #$05` and `JSR $C100`. -/
theorem test_withFetchWord :
    nextSat (step (State.reset.withFetchWord 16 0x05A9)) (fun t => decide (t.a = 0x05 ∧ t.pc = 0xFCE4 ∧ t.cycles = 2)) = true ∧
    nextSat (step (State.reset.withFetchWord 24 0xC10020)) (fun t => decide (t.pc = 0xC100 ∧ t.sp = 0xFB)) = true := by
  decide +kernel

/-! ### Witnesses: a concrete state and operands for the hypotheses of every statement that has some -/

/-- `start` with `LDA #$05`, `STA $D020`, `NOP` at $C000. -/
def program : State := withRam start [(0xC000, 0xA9), (0xC001, 0x05), (0xC002, 0x8D), (0xC003, 0x20), (0xC004, 0xD0), (0xC005, 0xEA)]

/-- `start` with an illegal opcode at $C000. -/
def illegal : State := withRam start [(0xC000, 0x02)]

theorem witness_DecodeOfEncodedInstruction :
    (Instr.bne (-5)).wellFormed = true ∧ (Instr.beq (-128)).wellFormed = true ∧ (Instr.bpl 127).wellFormed = true := by decide

theorem witness_EncodeOfDecodedBytes : decode [0x8D, 0x20, 0xD0, 0x60] = some (.staAbs 0xD020, [0x60]) := by decide +kernel

theorem witness_IllegalOpcodesAreFatal :
    illegal.fault = none ∧ NoInterrupt illegal ∧ (memRead illegal illegal.pc).1 ∈ Forms.illegalOpcodes :=
  ⟨rfl, ⟨rfl, .inl rfl⟩, by decide +kernel⟩

/-- One instruction of each length; the second inside an open frame with I = 1 and an IRQ pending. -/
theorem witness_StepRunsTheDecodedInstruction :
    (Runnable program ∧ NoInterrupt (atIteration program) ∧
      decode [(memRead program 0xC000).1, (memRead program 0xC001).1, (memRead program 0xC002).1] =
        some (.ldaImm 0x05, [0x8D])) ∧
    (let s := { program with pc := 0xC002, frameOpen := true, irqPending := true, p := flags 0x24 }
     Runnable s ∧ NoInterrupt (atIteration s) ∧
      decode [(memRead s 0xC002).1, (memRead s 0xC003).1, (memRead s 0xC004).1] = some (.staAbs 0xD020, [])) ∧
    (let s := { program with pc := 0xC005 }
     Runnable s ∧ NoInterrupt (atIteration s) ∧
      decode [(memRead s 0xC005).1, (memRead s 0xC006).1, (memRead s 0xC007).1] = some (.nop, [0, 0])) :=
  ⟨⟨⟨rfl, rfl, rfl, .inr rfl⟩, ⟨rfl, .inl rfl⟩, by decide +kernel⟩,
    ⟨⟨rfl, rfl, rfl, .inl rfl⟩, ⟨rfl, .inr rfl⟩, by decide +kernel⟩,
    ⟨⟨rfl, rfl, rfl, .inr rfl⟩, ⟨rfl, .inl rfl⟩, by decide +kernel⟩⟩

theorem witness_WithFetchWordRunsTheInstruction : decodeTableWord 16 0x05A9 = some (.ldaImm 0x05) := by decide +kernel

theorem witness_InterruptEntrySequence :
    (nmiVector = nmiVector ∨ nmiVector = irqVector) ∧ (irqVector = nmiVector ∨ irqVector = irqVector) := ⟨.inl rfl, .inr rfl⟩

/-- One state for each case of the step, and one opcode for each shape. -/
theorem witness_StepPriority :
    ({ start with fault := some { reason := .undefinedOpcode, opcode := 0x02, address := 0xC000 } } : State).fault.isSome = true ∧
    (let s := { start with nmiPending := true }
     s.fault = none ∧ s.nmiPending = true) ∧
    (let s := { start with irqPending := true }
     s.fault = none ∧ s.nmiPending = false ∧ s.irqPending = true ∧ s.p.i = false) ∧
    (illegal.fault = none ∧ NoInterrupt illegal ∧ (lookupShape (memRead illegal illegal.pc).1).isNone = true) ∧
    (program.fault = none ∧ NoInterrupt program ∧ (memRead program program.pc).1 = 0xA9) :=
  ⟨rfl, ⟨rfl, rfl⟩, ⟨rfl, rfl, rfl, rfl⟩, ⟨rfl, ⟨rfl, .inl rfl⟩, by decide +kernel⟩,
    ⟨rfl, ⟨rfl, .inl rfl⟩, by decide +kernel⟩⟩

theorem witness_StepPriority_shapes :
    ((∃ i, lookupShape 0xEA = some (.f1 i)) ∧ (∃ k, lookupShape 0xA9 = some (.f2 k)) ∧ ∃ k, lookupShape 0x8D = some (.f3 k)) :=
  ⟨⟨_, rfl⟩, ⟨_, rfl⟩, ⟨_, rfl⟩⟩

/-- The state the entry, BRK or JSR left is itself such a `u`. -/
theorem witness_ReturnsUndoTheirCalls :
    (let u := interruptEntry nmiVector start
     u.sp = (interruptEntry nmiVector start).sp ∧
      ∀ k : Byte, k = start.sp ∨ k = start.sp - 1 ∨ k = start.sp - 2 →
        ramByte u (stackAddr k) = ramByte (interruptEntry nmiVector start) (stackAddr k)) ∧
    (∃ b, exec .brk start = .next b) ∧ ∃ j, exec (.jsrAbs 0xC100) start = .next j :=
  ⟨⟨rfl, fun _ _ => rfl⟩, ⟨_, rfl⟩, ⟨_, rfl⟩⟩

theorem witness_FatalFaultHaltsTheLoop :
    ({ start with fault := some { reason := .undefinedOpcode, opcode := 0x02, address := 0xC000 } } : State).fault.isSome = true ∧
    nextSat (step illegal) (fun t => t.fault.isSome) = true := ⟨rfl, by decide +kernel⟩

theorem witness_IterationTicksThenSamples : nextSat (cpuStep program) (fun u => u.fault.isNone) = true := by decide +kernel

/-- CIA-B's running timer A underflows in this iteration, with its interrupt unmasked. -/
theorem witness_NmiPendingNeedsAnEdge :
    let s := { program with ciaB := { Cia.reset with taLatch := 0x10, taCnt := 0, cra := 1, icrMask := 1 } }
    s.nmiPending = false ∧ nextSat (iterate s) (fun t => t.fault.isNone && t.nmiPending) = true := by decide +kernel

theorem witness_ShutdownAndPauseRunNoInstruction :
    (let s := { start with shutdown := true }
     s.halted = false ∧ s.fault = none ∧ s.shutdown = true ∧ (s.frameOpen = true ∨ s.paused = false)) ∧
    (let s := { start with paused := true, events := [{ pos := .restore, down := true }] }
     s.halted = false ∧ s.fault = none ∧ s.frameOpen = false ∧ s.paused = true) := by decide +kernel

theorem witness_FrameIsARunOfSteps :
    State.reset.frameOpen = false ∧ State.reset.halted = false ∧ State.reset.fault = none := ⟨rfl, rfl, rfl⟩

theorem witness_FrameEndsWithinTheBudget : Runnable State.reset ∧ State.reset.frameOpen = false :=
  ⟨⟨rfl, rfl, rfl, .inr rfl⟩, rfl⟩

theorem witness_CycleCountBounds :
    nextSat (exec .nop start) (fun _ => true) = true ∧ nextSat (cpuStep program) (fun t => t.fault.isNone) = true := by
  decide +kernel

/-- From the reset state, which is legal, a step exists; the same step serves the statements about every step. -/
theorem witness_LegalStatesStayLegal :
    memoriesWf State.reset = true ∧ vicLegal State.reset.vic = true ∧ ciaLegal State.reset.ciaA = true ∧
    nextSat (step State.reset) (fun _ => true) = true := by decide +kernel

theorem witness_RomImagesNeverChange : nextSat (step program) (fun _ => true) = true := by decide +kernel

theorem witness_OnlyTheHostMovesHostState :
    let s := { program with frameOpen := true }
    nextSat (step s) (fun _ => true) = true ∧ s.frameOpen = true := by decide +kernel

/-- STA meets the premise of every clause. -/
theorem witness_FlagsAreWrittenOnlyByTheirInstructions :
    nextSat (exec (.staZp 0x10) start) (fun _ => true) = true ∧
    (Instr.staZp 0x10).mnemonic ∉ [.ADC, .SBC, .BIT, .CLV, .PLP, .RTI] ∧
    (Instr.staZp 0x10).mnemonic ∉ [.ADC, .SBC, .CMP, .CPX, .CPY, .ASL, .LSR, .ROL, .ROR, .CLC, .SEC, .PLP, .RTI] ∧
    (Instr.staZp 0x10).mnemonic ∉ [.CLD, .SED, .PLP, .RTI] ∧ (Instr.staZp 0x10).mnemonic ∉ [.CLI, .SEI, .PLP, .RTI, .BRK] ∧
    (Instr.staZp 0x10).mnemonic ∈ [.STA, .STX, .STY, .TXS] := by decide +kernel

/-- INC meets the premise of every clause. -/
theorem witness_RegistersAreWrittenOnlyByTheirInstructions :
    nextSat (exec (.incZp 0x10) start) (fun _ => true) = true ∧
    (Instr.incZp 0x10).mnemonic ∉ [.LDA, .TXA, .TYA, .ADC, .SBC, .AND, .ORA, .EOR, .PLA] ∧
    (Instr.incZp 0x10).mode ≠ .accumulator ∧ (Instr.incZp 0x10).mnemonic ∉ [.LDX, .TAX, .TSX, .INX, .DEX] ∧
    (Instr.incZp 0x10).mnemonic ∉ [.LDY, .TAY, .INY, .DEY] ∧
    (Instr.incZp 0x10).mnemonic ∉ [.TXS, .PHA, .PHP, .PLA, .PLP, .JSR, .RTS, .RTI, .BRK] := by decide +kernel

/-- One address per clause, at the edges of the ranges. -/
theorem witness_ReadsHaveOnlyTheIcrSideEffect :
    readSource start 0xC000 ≠ .io ∧ readSource start 0xDC0D = .io ∧ readSource start 0xDCFD = .io ∧
    readSource start 0xDD0D = .io ∧ readSource start 0xD800 = .io ∧ readSource start 0xDBFF = .io ∧
    readSource start 0xDC0C = .io ∧ (0xDCFD : Word).toNat % 16 = 13 := by decide +kernel

/-- The ends of the ranges of every clause. -/
theorem witness_BankTable :
    (0xA000 ≤ (0xA000 : Word).toNat ∧ (0xBFFF : Word).toNat ≤ 0xBFFF) ∧
    (0xD000 ≤ (0xD000 : Word).toNat ∧ (0xDFFF : Word).toNat ≤ 0xDFFF) ∧
    (0xE000 ≤ (0xE000 : Word).toNat ∧ 0xE000 ≤ (0xFFFF : Word).toNat) ∧
    (2 ≤ (0x0002 : Word).toNat ∧ (0x9FFF : Word).toNat ≤ 0x9FFF) ∧
    (0xC000 ≤ (0xC000 : Word).toNat ∧ (0xCFFF : Word).toNat ≤ 0xCFFF) ∧
    (0x0000 : Word).toNat < 2 ∧ (0x0001 : Word).toNat < 2 := by decide

/-- Each source at the edges of its ranges. -/
theorem witness_RamRoundTrip :
    readSource start 0x0002 = .ram ∧ readSource start 0x9FFF = .ram ∧ readSource start 0xA000 = .basic ∧
    readSource start 0xBFFF = .basic ∧ readSource start 0xC000 = .ram ∧ readSource start 0xE000 = .kernal ∧
    readSource start 0xFFFF = .kernal ∧ readSource { start with ddr := 0x07, data := 0x03 } 0xD000 = .charRom ∧
    readSource { memWrite start 0xA000 0x5A with ddr := 0x07, data := 0x06 } 0xA000 = .ram ∧
    readSource { memWrite start 0xE000 0x5A with ddr := 0x07, data := 0x05 } 0xE000 = .ram ∧
    readSource { memWrite { start with ddr := 0x07, data := 0x03 } 0xD000 0x5A with ddr := 0x07, data := 0x00 } 0xD000 =
      .ram := by decide +kernel

theorem witness_WriteRouting :
    readSource start 0xA000 ≠ .port ∧ readSource start 0xA000 ≠ .io ∧ readSource start 0xD020 = .io ∧
    readSource start 0x0000 = .port ∧ readSource start 0x0001 = .port := by decide +kernel

/-- One address per clause, at the edges of the pages; every one reaches IO. -/
theorem witness_IoDispatchByPage :
    ([0xD000, 0xD3FF, 0xD400, 0xD7FF, 0xD800, 0xDBFF, 0xDC00, 0xDCFF, 0xDD00, 0xDDFF, 0xDE00, 0xDFFF] : List Word).all
      (fun a => decide (readSource start a = .io)) = true := by decide +kernel

theorem witness_EqualMemoriesAreEqualData : Memory.wf 65536 (0 : Byte) [(1, 0x05), (65535, 0x06)] = true := by decide +kernel

/-- Below a line, at a line, and at the wrap. -/
theorem witness_VicTickIsTheLineLoop :
    Vic.reset.acc + 62 < 63 ∧ 63 ≤ Vic.reset.acc + 63 ∧ 63 ≤ ({ Vic.reset with raster := 311, acc := 62 } : Vic).acc + 2 := by
  decide

/-- The first and the last line; a compare of 0, of 311 and of 312. -/
theorem witness_VicFrameIs19656Cycles :
    let compare (v : Vic) : Nat := 256 * (v.vreg[0x11].toNat / 128) + v.vreg[0x12].toNat
    let set (hi lo : Byte) : Vic := { Vic.reset with vreg := (Vic.reset.vreg.set 0x11 hi).set 0x12 lo }
    Vic.reset.raster.toNat < 312 ∧ Vic.reset.acc < 63 ∧ compare Vic.reset = 0 ∧
    ({ Vic.reset with raster := 311, acc := 62 } : Vic).raster.toNat < 312 ∧
    compare (set 0x9B 0x37) = 311 ∧ compare (set 0x80 0x38) = 312 := by decide +kernel

/-- The last used index, the first and last unused, a pair of indices, and the excepted pair. -/
theorem witness_VicRegisterFile :
    ((0x1A : BitVec 6) ≠ 0x19 ∧ (0x12 : BitVec 6) ≠ 0x11 ∧ ¬((0x11 : BitVec 6) = 0x1A ∧ (0x12 : BitVec 6) = 0x19)) ∧
    ((0x2E : BitVec 6).toNat ≤ 0x2E ∧ (0x2E : BitVec 6) ≠ 0x11 ∧ (0x2E : BitVec 6) ≠ 0x12 ∧ (0x2E : BitVec 6) ≠ 0x19) ∧
    0x2E < (0x2F : BitVec 6).toNat ∧ 0x2E < (0x3F : BitVec 6).toNat := by decide

/-- Both timers: not counting, counting down to 0 exactly, and going below 0. -/
theorem witness_TimersUnderflowPastZero :
    let c := { Cia.reset with cra := 0x01, crb := 0x01, taCnt := 5, tbCnt := 5 }
    (c.cra.getLsbD 0 = true ∧ c.cra.getLsbD 5 = false) ∧
    (c.crb.getLsbD 0 = true ∧ c.crb.getLsbD 5 = false ∧ c.crb.getLsbD 6 = false) ∧ 5 ≤ c.taCnt.toNat ∧ 5 ≤ c.tbCnt.toNat ∧
    c.taCnt.toNat < 6 ∧ c.tbCnt.toNat < 6 ∧ Cia.reset.cra.getLsbD 0 = false ∧ Cia.reset.crb.getLsbD 0 = false := by
  decide +kernel

theorem witness_TimerPeriodIsLatchPlusOne :
    let c := { Cia.reset with cra := 0x01, taLatch := 4, taCnt := 4 }
    countsA c = true ∧ c.cra.getLsbD 3 = false ∧ countsB c = false ∧ c.taCnt = c.taLatch := by decide +kernel

theorem witness_TimerRegisterWrites :
    (0x21 : Byte).getLsbD 0 = true ∧ (0x21 : Byte).getLsbD 5 = true ∧ (0x41 : Byte).getLsbD 0 = true ∧
    (0x41 : Byte).getLsbD 6 = true := by decide

/-- Two states that differ in A only agree on everything a snapshot reads. -/
theorem witness_SnapshotReadsRamAndColor :
    let t := { start with a := 0x55 }
    start.ram = t.ram ∧ start.color = t.color ∧ start.vic.vreg[0x18] = t.vic.vreg[0x18] ∧ start.ciaB.pra = t.ciaB.pra ∧
    24 < 25 ∧ 39 < 40 := ⟨rfl, rfl, rfl, rfl, by decide, by decide⟩

/-- The lists of forms are those of the opcode table: 18 loads, 13 stores, 24 of ADC, SBC, CMP and so on; none is empty. -/
theorem witness_forms :
    (Forms.lda 0 0).length = 8 ∧ (Forms.ldx 0 0).length = 5 ∧ (Forms.ldy 0 0).length = 5 ∧ (Forms.sta 0 0).length = 7 ∧
    (Forms.stx 0 0).length = 3 ∧ (Forms.sty 0 0).length = 3 ∧ (Forms.adc 0 0).length = 8 ∧ (Forms.sbc 0 0).length = 8 ∧
    (Forms.cmp 0 0).length = 8 ∧ (Forms.cpx 0 0).length = 3 ∧ (Forms.cpy 0 0).length = 3 ∧ (Forms.and 0 0).length = 8 ∧
    (Forms.ora 0 0).length = 8 ∧ (Forms.eor 0 0).length = 8 ∧ (Forms.bit 0 0).length = 2 ∧ (Forms.inc 0 0).length = 4 ∧
    (Forms.dec 0 0).length = 4 ∧ (Forms.asl 0 0).length = 4 ∧ (Forms.lsr 0 0).length = 4 ∧ (Forms.rol 0 0).length = 4 ∧
    (Forms.ror 0 0).length = 4 := by decide

theorem witness_AdcBinaryResult :
    start.p.d = false ∧ ((.adcImm 0x50, .imm 0x50, 2) : Instr × Operand × Nat) ∈ Forms.adc 0x50 0 := by decide +kernel

/-- $15 + $27, both valid BCD. -/
theorem witness_AdcDecimalResult :
    ({ start with a := 0x15, p := flags 0x28 } : State).p.d = true ∧
    ((.adcImm 0x27, .imm 0x27, 2) : Instr × Operand × Nat) ∈ Forms.adc 0x27 0 ∧
    (0x15 : Byte).toNat / 16 ≤ 9 ∧ (0x15 : Byte).toNat % 16 ≤ 9 ∧ (0x27 : Byte).toNat / 16 ≤ 9 ∧
    (0x27 : Byte).toNat % 16 ≤ 9 := by decide +kernel

/-- $46 - $12 in decimal mode, both valid BCD. -/
theorem witness_SbcResult :
    ((.sbcImm 0x12, .imm 0x12, 2) : Instr × Operand × Nat) ∈ Forms.sbc 0x12 0 ∧
    ({ start with a := 0x46, p := flags 0x29 } : State).p.d = true ∧ (0x46 : Byte).toNat / 16 ≤ 9 ∧
    (0x46 : Byte).toNat % 16 ≤ 9 ∧ (0x12 : Byte).toNat / 16 ≤ 9 ∧ (0x12 : Byte).toNat % 16 ≤ 9 := by decide +kernel

theorem witness_BranchesGoToNextOrTarget :
    ((-128 : Int) ≤ -128 ∧ (-128 : Int) ≤ 127) ∧ ((-128 : Int) ≤ 127 ∧ (127 : Int) ≤ 127) ∧
    (start.p.n = false ∧ start.p.n ≠ true) := by decide +kernel

/-- The states CLI and SEI leave, with an IRQ or an NMI pending, meet the clauses on what follows. -/
theorem witness_FlagInstructionsAndNop :
    nextSat (exec .cli { start with irqPending := true })
      (fun u => u.fault.isNone && !u.nmiPending && u.irqPending) = true ∧
    nextSat (exec .sei { start with irqPending := true }) (fun u => u.fault.isNone && !u.nmiPending) = true ∧
    nextSat (exec .sei { start with nmiPending := true }) (fun u => u.fault.isNone && u.nmiPending) = true := by
  decide +kernel

/-- The registers beside the ICR, and the edges of both CIA pages. -/
theorem witness_CiaRegisterFile :
    ((12 : BitVec 4) ≠ 13 ∧ (14 : BitVec 4) ≠ 13) ∧
    ([0xDC00, 0xDCFF] : List Word).all (fun a => decide (readSource start a = .io ∧ a.toNat / 256 = 0xDC)) = true ∧
    ([0xDD00, 0xDDFF] : List Word).all (fun a => decide (readSource start a = .io ∧ a.toNat / 256 = 0xDD)) = true := by
  decide +kernel

theorem witness_StartupLoadsTheResetVector :
    (testPowerOn.romBasic.length = 8192 ∧ testPowerOn.romKernal.length = 8192 ∧ testPowerOn.romChar.length = 4096) ∧
    ¬({ testPowerOn with romChar := [] } : PowerOn).romChar.length = 4096 :=
  ⟨⟨List.length_replicate, (List.length_append ..).trans (by rw [List.length_replicate]; rfl), List.length_replicate⟩,
    by decide⟩

end Sys2Proof.Tests
end

section
/-! SUPPORT. A step that answers a next state, and what the end of an iteration leaves behind. -/

namespace Sys2Proof.Machine

/-! ### A step that answers a next state -/

/-- A paused frame takes the waiting events and touches the keys and the NMI bit besides (R187, R190). -/
theorem takeEvents_frame (s : State) :
    takeEvents s = { s with keys := (takeEvents s).keys, nmiPending := (takeEvents s).nmiPending, events := [] } := by
  unfold takeEvents
  rw [applyEvents_frame]

/-- A step that answers a next state is a paused frame or an iteration (R183, R186, R187). -/
theorem step_next_cases {s t : State} (h : step s = .next t) :
    (s.frameOpen = false ∧ s.halted = false ∧ s.fault = none ∧ t = takeEvents s) ∨
    (Runnable s ∧ ∃ u, cpuStep (atIteration s) = .next u ∧ t = closeFrame (afterStep u)) := by
  rcases step_cases s with ⟨-, e⟩ | ⟨hh, hf, ho, -, e⟩ | ⟨-, -, -, -, e⟩ | ⟨hr, u, hu, e⟩
  all_goals
    rw [e] at h
    cases h
  · exact .inl ⟨ho, hh, hf, rfl⟩
  · exact .inr ⟨hr, u, hu, rfl⟩

/-! ### The end of an iteration -/

/-- After a fatal fault nothing ticks and no frame ends: the loop halts (R183, R189). -/
theorem iterationEnd_fault {u : State} (h : u.fault.isSome = true) :
    closeFrame (afterStep u) = { u with halted := true } := by
  simp [afterStep, closeFrame, h]

/-- Without a fault the chips tick and the lines are sampled (R183). -/
theorem afterStep_running {u : State} (h : u.fault = none) : afterStep u = sampleLines (tickAll u) := by
  simp [afterStep, h]

/-- What follows the CPU step writes the counters, the chips, the pending bits and the loop's own flags only (R183 to
R186). -/
theorem iterationEnd_frame (u : State) :
    closeFrame (afterStep u) = { u with
      cycles := (closeFrame (afterStep u)).cycles, frameCycles := (closeFrame (afterStep u)).frameCycles
      vic := (closeFrame (afterStep u)).vic, ciaA := (closeFrame (afterStep u)).ciaA, ciaB := (closeFrame (afterStep u)).ciaB
      irqPending := (closeFrame (afterStep u)).irqPending, nmiPending := (closeFrame (afterStep u)).nmiPending
      nmiLinePrev := (closeFrame (afterStep u)).nmiLinePrev, halted := (closeFrame (afterStep u)).halted
      frameOpen := (closeFrame (afterStep u)).frameOpen } := by
  unfold closeFrame afterStep
  split
  all_goals
    split
    · rfl
    · split
      · rfl
      · split <;> rfl

end Sys2Proof.Machine
end

section
/-! SUPPORT. The ranges of the chips, and that every step keeps a legal state legal (10_state.md sections 5 to 7). -/

namespace Sys2Proof.Machine

/-! ### The chips stay in their ranges -/

theorem vicLegal_iff (v : Vic) : vicLegal v = true ↔ v.raster.toNat < 312 ∧ v.acc < 63 ∧ v.latch.toNat < 2 := by
  simp [vicLegal, and_assoc]

theorem ciaLegal_iff (c : Cia) :
    ciaLegal c = true ↔ c.cra.getLsbD 4 = false ∧ c.crb.getLsbD 4 = false ∧ c.icrLatch.toNat < 4 := by
  simp [ciaLegal, and_assoc]

/-- A VIC-II write keeps the ranges: it moves no counter and clears latch bits only (R158, R159). -/
theorem vicLegal_vicWrite {v : Vic} (i : BitVec 6) (b : Byte) (h : vicLegal v = true) :
    vicLegal (vicWrite v i b) = true := by
  obtain ⟨m, hm⟩ := vicWrite_latch v i b
  obtain ⟨hr, ha, hl⟩ := (vicLegal_iff v).1 h
  have hle : (v.latch &&& m).toNat ≤ v.latch.toNat := by
    rw [BitVec.toNat_and]
    exact Nat.and_le_left
  exact (vicLegal_iff _).2 ⟨by simpa using hr, by simpa using ha, by rw [hm]; omega⟩

/-- Setting the raster bit of the latch keeps latch bits 1 to 3 at 0 (R160). -/
theorem latch_or_one_lt {l : BitVec 4} (h : l.toNat < 2) : (l ||| 1).toNat < 2 := by
  rw [BitVec.toNat_or]
  exact Nat.or_lt_two_pow (n := 1) h (by decide)

/-- The raster bit of the latch is set when the new line is the compared one (R161, R162). -/
theorem vicLine_latch (v : Vic) :
    (vicLine v).latch = if (vicLine v).raster = vicCompare v then v.latch ||| 1 else v.latch := rfl

/-- The next line keeps the raster in 0 to 311 and the latch in its one bit (R160, R162). -/
theorem vicLegal_vicLine {v : Vic} (h : vicLegal v = true) : vicLegal (vicLine v) = true := by
  obtain ⟨hr, ha, hl⟩ := (vicLegal_iff v).1 h
  refine (vicLegal_iff _).2 ⟨?_, ha, ?_⟩
  · simp only [vicLine, decide_eq_true_eq]
    split
    · decide
    · bv_omega
  · rw [vicLine_latch]
    split
    · exact latch_or_one_lt hl
    · exact hl

/-- Any number of cycles keeps the VIC-II in its ranges (R30, R162). -/
theorem vicLegal_vicTick {v : Vic} (n : Nat) (h : vicLegal v = true) : vicLegal (vicTick n v) = true := by
  have hlines : ∀ k, vicLegal (vicLine^[k] v) = true := fun k =>
    Function.Iterate.rec (fun u => vicLegal u = true) h (fun _ hu => vicLegal_vicLine hu) k
  obtain ⟨hr, -, hl⟩ := (vicLegal_iff _).1 (hlines ((v.acc + n) / 63))
  exact (vicLegal_iff _).2 ⟨hr, Nat.mod_lt _ (by decide), hl⟩

/-- An ICR read clears the latch, any other CIA read changes nothing, so the ranges stay (R179). -/
theorem ciaLegal_ciaRead {c : Cia} (p : Byte) (i : BitVec 4) (h : ciaLegal c = true) :
    ciaLegal (ciaRead p c i).2 = true := by
  rw [ciaRead_state]
  obtain ⟨ha, hb, -⟩ := (ciaLegal_iff c).1 h
  split
  · exact (ciaLegal_iff _).2 ⟨ha, hb, (by decide : (0 : BitVec 5).toNat < 4)⟩
  · exact h

/-- Bit 4 of a control write is not stored (R175). -/
theorem controlWrite_bit4 (v : Byte) : (v &&& 0xEF).getLsbD 4 = false := by
  simp

/-- A CIA write keeps the ranges (R171, R175). -/
theorem ciaLegal_ciaWrite {c : Cia} (i : BitVec 4) (v : Byte) (h : ciaLegal c = true) :
    ciaLegal (ciaWrite c i v) = true := by
  obtain ⟨ha, hb, hl⟩ := (ciaLegal_iff c).1 h
  rw [ciaLegal_iff, ciaWrite_icrLatch]
  refine ⟨?_, ?_, hl⟩
  · unfold ciaWrite
    split
    case h_15 => exact controlWrite_bit4 v
    all_goals exact ha
  · unfold ciaWrite
    split
    case h_16 => exact controlWrite_bit4 v
    all_goals exact hb

/-- Stopping a one-shot timer leaves bit 4 of its control register at 0 (R177). -/
theorem stopOneShot_bit4 {control : Byte} (h : control.getLsbD 4 = false) : (stopOneShot control).getLsbD 4 = false := by
  unfold stopOneShot
  split
  · rw [BitVec.getLsbD_and, h, Bool.false_and]
  · exact h

/-- An underflow sets latch bit 0 or 1 and no other (R177, R181). -/
theorem icrLatch_or_lt {l b : BitVec 5} (h : l.toNat < 4) (hb : b.toNat < 4) : (l ||| b).toNat < 4 := by
  rw [BitVec.toNat_or]
  exact Nat.or_lt_two_pow (n := 2) h hb

theorem ciaLegal_tickTimerA {c : Cia} (n : Nat) (h : ciaLegal c = true) : ciaLegal (tickTimerA n c) = true := by
  obtain ⟨ha, hb, hl⟩ := (ciaLegal_iff c).1 h
  unfold tickTimerA
  split
  · split
    · exact (ciaLegal_iff _).2 ⟨stopOneShot_bit4 ha, hb, icrLatch_or_lt hl (by decide)⟩
    · exact h
  · exact h

theorem ciaLegal_tickTimerB {c : Cia} (n : Nat) (h : ciaLegal c = true) : ciaLegal (tickTimerB n c) = true := by
  obtain ⟨ha, hb, hl⟩ := (ciaLegal_iff c).1 h
  unfold tickTimerB
  split
  · split
    · exact (ciaLegal_iff _).2 ⟨ha, stopOneShot_bit4 hb, icrLatch_or_lt hl (by decide)⟩
    · exact h
  · exact h

/-- Any number of cycles keeps a CIA in its ranges (R177, R181). -/
theorem ciaLegal_ciaTick {c : Cia} (n : Nat) (h : ciaLegal c = true) : ciaLegal (ciaTick n c) = true :=
  ciaLegal_tickTimerB n (ciaLegal_tickTimerA n h)

/-! ### The bus keeps the chips in their ranges -/

/-- The three chips are in their ranges. -/
def ChipsLegal (s : State) : Prop := vicLegal s.vic = true ∧ ciaLegal s.ciaA = true ∧ ciaLegal s.ciaB = true

theorem ChipsLegal.memRead {s : State} (a : Word) (h : ChipsLegal s) : ChipsLegal (memRead s a).2 := by
  obtain ⟨hv, hA, hB⟩ := h
  unfold Machine.memRead
  split
  case h_4 =>
    unfold ioRead
    split
    case h_3 => exact ⟨hv, ciaLegal_ciaRead _ _ hA, hB⟩
    case h_4 => exact ⟨hv, hA, ciaLegal_ciaRead _ _ hB⟩
    all_goals exact ⟨hv, hA, hB⟩
  all_goals exact ⟨hv, hA, hB⟩

theorem ChipsLegal.memWrite {s : State} (a : Word) (v : Byte) (h : ChipsLegal s) : ChipsLegal (memWrite s a v) := by
  obtain ⟨hv, hA, hB⟩ := h
  unfold Machine.memWrite
  split
  case h_1 =>
    unfold portWrite
    split <;> exact ⟨hv, hA, hB⟩
  case h_2 =>
    unfold ioWrite
    split
    case h_1 => exact ⟨vicLegal_vicWrite _ _ hv, hA, hB⟩
    case h_3 => exact ⟨hv, ciaLegal_ciaWrite _ _ hA, hB⟩
    case h_4 => exact ⟨hv, hA, ciaLegal_ciaWrite _ _ hB⟩
    all_goals exact ⟨hv, hA, hB⟩
  all_goals exact ⟨hv, hA, hB⟩

/-- No bus write makes a frame available: only the raster's wrap does (R162). -/
@[simp] theorem memWrite_frameAvailable (s : State) (a : Word) (v : Byte) :
    (memWrite s a v).vic.frameAvailable = s.vic.frameAvailable := by
  unfold memWrite
  split
  case h_1 =>
    unfold portWrite
    split <;> rfl
  case h_2 =>
    unfold ioWrite
    split
    case h_1 => exact vicWrite_frameAvailable ..
    all_goals rfl
  all_goals rfl

/-! ### Legal states -/

/-- What holds of a legal machine's state inside an iteration, from its start to the end of the CPU step: the loop has not
halted, the frame's budget is not used up, and no frame is flagged. Unlike `Legal` it does not speak of the fault record,
which the CPU step sets before the loop halts (R183, R189). -/
structure LegalInIteration (s : State) : Prop where
  memories  : memoriesWf s = true
  chips     : ChipsLegal s
  running   : s.halted = false
  budget    : s.frameCycles < Config.cycleBudget
  noFrame   : s.vic.frameAvailable = false

/-- `Legal`, clause by clause. -/
theorem legal_iff (s : State) :
    Legal s = true ↔ memoriesWf s = true ∧ ChipsLegal s ∧ s.halted = s.fault.isSome ∧
      (s.frameOpen = true → s.frameCycles < Config.cycleBudget) ∧ s.vic.frameAvailable = false := by
  have hframe : (!s.frameOpen || decide (s.frameCycles < Config.cycleBudget)) = true ↔
      (s.frameOpen = true → s.frameCycles < Config.cycleBudget) := by
    cases s.frameOpen <;> simp
  simp only [Legal, ChipsLegal, Bool.and_eq_true, hframe, beq_iff_eq, Bool.not_eq_true', and_assoc]

theorem legalInIteration_stable : Stable LegalInIteration where
  read s a h := ⟨by simpa using h.memories, h.chips.memRead a, by simpa using h.running, by simpa using h.budget,
    by simpa using h.noFrame⟩
  write s a v h := ⟨memoriesWf_memWrite a v h.memories, h.chips.memWrite a v, by simpa using h.running,
    by simpa using h.budget, by simpa using h.noFrame⟩
  regs _ _ _ _ _ _ _ _ h := ⟨h.memories, h.chips, h.running, h.budget, h.noFrame⟩

/-- The CPU step of a legal machine, fatal or not. -/
theorem LegalInIteration.cpuStep {s u : State} (hs : LegalInIteration s) (h : cpuStep s = .next u) : LegalInIteration u :=
  legalInIteration_stable.cpuStep (fun _ _ _ h => ⟨h.memories, h.chips, h.running, h.budget, h.noFrame⟩)
    (fun _ _ h => ⟨h.memories, h.chips, h.running, h.budget, h.noFrame⟩) hs h

/-- A paused frame keeps a legal state legal: events touch nothing `Legal` speaks of. -/
theorem legal_takeEvents {s : State} (h : Legal s = true) : Legal (takeEvents s) = true := by
  rw [takeEvents_frame]
  exact h

/-- The iteration of a legal machine starts inside its budget: a frame that opens has used none of it (R186). -/
theorem legalInIteration_atIteration {s : State} (h : Legal s = true) (hr : Runnable s) :
    LegalInIteration (atIteration s) := by
  obtain ⟨hm, hc, -, hb, hn⟩ := (legal_iff s).1 h
  have hbudget : (atIteration s).frameCycles < Config.cycleBudget := by
    unfold atIteration
    split
    · next ho => exact hb ho
    · exact (by decide : 0 < Config.cycleBudget)
  rw [atIteration_frame]
  exact ⟨hm, hc, hr.1, hbudget, hn⟩

/-- The ticks and the sample keep the memories and the chips' ranges. -/
theorem ChipsLegal.tick {u : State} (h : ChipsLegal u) : ChipsLegal (sampleLines (tickAll u)) := by
  obtain ⟨hv, hA, hB⟩ := h
  exact ⟨vicLegal_vicTick _ hv, ciaLegal_ciaTick _ hA, ciaLegal_ciaTick _ hB⟩

/-- The end-of-frame test leaves a legal state: a flagged frame is consumed, and a frame that stays open is inside its
budget (R186). -/
theorem legal_closeFrame {t : State} (hm : memoriesWf t = true) (hc : ChipsLegal t) (hh : t.halted = false)
    (hf : t.fault = none) : Legal (closeFrame t) = true := by
  have hhalt : t.halted = t.fault.isSome := by rw [hh, hf]; rfl
  rw [legal_iff]
  unfold closeFrame
  rw [if_neg (by simp [hh])]
  split
  · exact ⟨hm, hc, hhalt, nofun, rfl⟩
  · next hav =>
    have hnone : t.vic.frameAvailable = false := by simpa using hav
    split
    · exact ⟨hm, hc, hhalt, nofun, hnone⟩
    · next hlt => exact ⟨hm, hc, hhalt, fun _ => Nat.lt_of_not_le hlt, hnone⟩

/-- The end of an iteration leaves a legal state, with or without a fatal fault. -/
theorem LegalInIteration.iterationEnd {u : State} (h : LegalInIteration u) : Legal (closeFrame (afterStep u)) = true := by
  cases hf : u.fault with
  | some f =>
    rw [iterationEnd_fault (by simp [hf]), legal_iff]
    exact ⟨h.memories, h.chips, by simp [hf], fun _ => h.budget, h.noFrame⟩
  | none =>
    rw [afterStep_running hf]
    exact legal_closeFrame h.memories h.chips.tick h.running hf

/-- Settles O19: an iteration of a legal machine runs in `LegalInIteration`, which the CPU keeps, and ends legal. -/
theorem legalStatesStayLegal : Obligations.LegalStatesStayLegal := by
  intro s t hs h
  rcases step_next_cases h with ⟨-, -, -, rfl⟩ | ⟨hr, u, hu, rfl⟩
  · exact legal_takeEvents hs
  · exact ((legalInIteration_atIteration hs hr).cpuStep hu).iterationEnd

end Sys2Proof.Machine
end

section
/-! SUPPORT. Faults, ROM images and the host's state (R27, R28, R32, R194). -/

namespace Sys2Proof.Machine

/-- Settles O11: only an iteration can record a fault, and its end halts the loop. -/
theorem fatalFaultHaltsTheLoop : Obligations.FatalFaultHaltsTheLoop := by
  have hstop : ∀ s : State, s.fault.isSome = true → cpuStep s = .fault .halted ∧ step s = .fault .halted := fun s hs =>
    ⟨by simp [cpuStep, hs], by simp [step, loopStep, hs]⟩
  refine ⟨hstop, fun s t h ht => ⟨?_, (hstop t ht).2⟩⟩
  rcases step_next_cases h with ⟨-, -, hf, rfl⟩ | ⟨-, u, -, rfl⟩
  · rw [takeEvents_frame] at ht
    simp [hf] at ht
  · have hu : u.fault.isSome = true := by rwa [iterationEnd_frame] at ht
    rw [iterationEnd_fault hu]

/-- `t` has the ROM images of `s`. -/
def SameRoms (s t : State) : Prop := t.romBasic = s.romBasic ∧ t.romKernal = s.romKernal ∧ t.romChar = s.romChar

theorem sameRoms_stable (s : State) : Stable (SameRoms s) where
  read u a h := by simpa [SameRoms] using h
  write u a v h := by simpa [SameRoms] using h
  regs _ _ _ _ _ _ _ _ h := h

/-- Settles O21: the bus writes no ROM image, so the CPU step keeps them, and the rest of a step does not touch them. -/
theorem romImagesNeverChange : Obligations.RomImagesNeverChange := by
  intro s t h
  rcases step_next_cases h with ⟨-, -, -, rfl⟩ | ⟨-, u, hu, rfl⟩
  · rw [takeEvents_frame]
    exact ⟨rfl, rfl, rfl⟩
  · have hstart : SameRoms s (atIteration s) := by
      rw [atIteration_frame]
      exact ⟨rfl, rfl, rfl⟩
    have hcpu : SameRoms s u :=
      (sameRoms_stable s).cpuStep (fun _ _ _ h => h) (fun _ _ h => h) hstart hu
    rw [iterationEnd_frame]
    exact hcpu

/-- `t` has the pause flag, the shutdown flag, the keys and the waiting events of `s`. -/
def SameHostState (s t : State) : Prop :=
  t.paused = s.paused ∧ t.shutdown = s.shutdown ∧ t.keys = s.keys ∧ t.events = s.events

theorem sameHostState_stable (s : State) : Stable (SameHostState s) where
  read u a h := by simpa [SameHostState] using h
  write u a v h := by simpa [SameHostState] using h
  regs _ _ _ _ _ _ _ _ h := h

/-- An iteration keeps the host's state as it stands when the iteration begins. -/
theorem sameHostState_iteration {s u : State} (h : cpuStep s = .next u) : SameHostState s (closeFrame (afterStep u)) := by
  have hcpu : SameHostState s u :=
    (sameHostState_stable s).cpuStep (fun _ _ _ h => h) (fun _ _ h => h) ⟨rfl, rfl, rfl, rfl⟩ h
  rw [iterationEnd_frame]
  exact hcpu

/-- Settles O22: events are applied before an iteration begins and only between frames; no iteration touches the host's
state. -/
theorem onlyTheHostMovesHostState : Obligations.OnlyTheHostMovesHostState := by
  intro s t h
  rcases step_next_cases h with ⟨ho, -, -, rfl⟩ | ⟨-, u, hu, rfl⟩
  · rw [takeEvents_frame]
    exact ⟨rfl, rfl, fun h => by simp [ho] at h⟩
  · obtain ⟨hp, hs, hk, he⟩ := sameHostState_iteration hu
    have hstart : (atIteration s).paused = s.paused ∧ (atIteration s).shutdown = s.shutdown := by
      rw [atIteration_frame]
      exact ⟨rfl, rfl⟩
    refine ⟨hp.trans hstart.1, hs.trans hstart.2, fun ho => ?_⟩
    rw [atIteration_open ho] at hk he
    exact ⟨hk, he⟩

end Sys2Proof.Machine
end

section
/-! SUPPORT. The canonical form of a memory is unique (log 1). -/

namespace Sys2Proof.Machine

theorem Memory.wfFrom_cons {w size lo k : Nat} {fill u : BitVec w} {m : Memory w} :
    Memory.wfFrom size fill lo ((k, u) :: m) = true ↔
      lo ≤ k ∧ k < size ∧ u ≠ fill ∧ Memory.wfFrom size fill (k + 1) m = true := by
  simp [Memory.wfFrom, and_assoc]

/-- A canonical memory that reads like one whose first entry is at `k` must list `k` too, so its lower bound is at most
`k`. -/
theorem Memory.bound_le_of_read_eq {w size lo k : Nat} {fill u : BitVec w} {m m' : Memory w} (hu : u ≠ fill)
    (h' : Memory.wfFrom size fill lo m' = true) (hr : ∀ a, Memory.read fill ((k, u) :: m) a = Memory.read fill m' a) :
    lo ≤ k := by
  by_contra hlt
  have hread : u = fill := by simpa [Memory.read, Memory.read_below h' (Nat.lt_of_not_le hlt)] using hr k
  exact hu hread

/-- Memories that are canonical from one bound on and read alike are the same list: both start with the lowest address that
does not read as the fill value, and so on. -/
theorem Memory.eq_of_read_eq {w size : Nat} {fill : BitVec w} {m m' : Memory w} {lo : Nat}
    (h : Memory.wfFrom size fill lo m = true) (h' : Memory.wfFrom size fill lo m' = true)
    (hr : ∀ a, Memory.read fill m a = Memory.read fill m' a) : m = m' := by
  induction m generalizing m' lo with
  | nil =>
    cases m' with
    | nil => rfl
    | cons c' m' =>
      obtain ⟨k', u'⟩ := c'
      obtain ⟨-, -, hu', -⟩ := Memory.wfFrom_cons.1 h'
      have hread : u' = fill := by simpa [Memory.read] using (hr k').symm
      exact absurd hread hu'
  | cons c m ih =>
    obtain ⟨k, u⟩ := c
    obtain ⟨-, hk, hu, hm⟩ := Memory.wfFrom_cons.1 h
    cases m' with
    | nil =>
      have hread : u = fill := by simpa [Memory.read] using hr k
      exact absurd hread hu
    | cons c' m' =>
      obtain ⟨k', u'⟩ := c'
      obtain ⟨-, hk', hu', hm'⟩ := Memory.wfFrom_cons.1 h'
      have hle : k' ≤ k :=
        Memory.bound_le_of_read_eq hu (Memory.wfFrom_cons.2 ⟨Nat.le_refl k', hk', hu', hm'⟩) hr
      have hge : k ≤ k' :=
        Memory.bound_le_of_read_eq hu' (Memory.wfFrom_cons.2 ⟨Nat.le_refl k, hk, hu, hm⟩) fun a => (hr a).symm
      obtain rfl : k = k' := Nat.le_antisymm hge hle
      obtain rfl : u = u' := by simpa [Memory.read] using hr k
      have htail : ∀ a, Memory.read fill m a = Memory.read fill m' a := fun a => by
        by_cases ha : a = k
        · rw [Memory.read_below hm (by omega), Memory.read_below hm' (by omega)]
        · simpa [Memory.read, ha] using hr a
      rw [ih hm hm' htail]

/-- Settles O31: the canonical form lists exactly the addresses that do not read as the fill value, in rising order. -/
theorem equalMemoriesAreEqualData : Obligations.EqualMemoriesAreEqualData :=
  fun _ _ _ _ _ h h' hr => Memory.eq_of_read_eq h h' hr

end Sys2Proof.Machine
end

section
/-! SUPPORT. Start-up with the test images (95_test_vectors.md section 1). -/

namespace Sys2Proof.Machine

/-- The leading fill bytes of an image are not listed. -/
theorem Memory.ofBytes_replicate_append {w : Nat} (fill : BitVec w) (k n : Nat) (vs : List (BitVec w)) :
    Memory.ofBytes fill k (List.replicate n fill ++ vs) = Memory.ofBytes fill (k + n) vs := by
  induction n generalizing k with
  | zero => rfl
  | succ n ih =>
    rw [List.replicate_succ, List.cons_append, Memory.ofBytes, if_pos rfl, ih, Nat.add_assoc, Nat.add_comm 1]

/-- An image of fill bytes only is the empty memory. -/
theorem Memory.ofBytes_replicate {w : Nat} (fill : BitVec w) (k n : Nat) :
    Memory.ofBytes fill k (List.replicate n fill) = [] := by
  simpa [Memory.ofBytes] using Memory.ofBytes_replicate_append fill k n []

/-- The test images have the lengths start-up checks (R193). -/
theorem testPowerOn_lengthsOk : testPowerOn.lengthsOk = true := by
  have hB : testPowerOn.romBasic.length = 8192 := List.length_replicate
  have hK : testPowerOn.romKernal.length = 8192 :=
    (List.length_append ..).trans (congrArg (· + 6) List.length_replicate)
  have hC : testPowerOn.romChar.length = 4096 := List.length_replicate
  rw [PowerOn.lengthsOk, hB, hK, hC]
  rfl

/-- The BASIC test image is $BB throughout, its fill byte (95_test_vectors.md section 1). -/
theorem testPowerOn_romBasic : Memory.ofBytes Config.basicFill 0 testPowerOn.romBasic = [] :=
  Memory.ofBytes_replicate Config.basicFill 0 8192

/-- The KERNAL test image is its fill byte up to the vectors. -/
theorem testPowerOn_romKernal : Memory.ofBytes Config.kernalFill 0 testPowerOn.romKernal = kernalVectors :=
  (Memory.ofBytes_replicate_append Config.kernalFill 0 8186 _).trans rfl

/-- The CHAR test image is $CC throughout, its fill byte. -/
theorem testPowerOn_romChar : Memory.ofBytes Config.charFill 0 testPowerOn.romChar = [] :=
  Memory.ofBytes_replicate Config.charFill 0 4096

/-- Settles O20: the test images' sparse form is `State.reset`'s, and `reset()` then reads the RESET vector $FCE2. -/
theorem resetIsLegalAndTheStartupState : Obligations.ResetIsLegalAndTheStartupState := by
  refine ⟨by decide, ?_⟩
  rw [startup, if_pos testPowerOn_lengthsOk, powerOn, testPowerOn_romBasic, testPowerOn_romKernal, testPowerOn_romChar]
  rfl

end Sys2Proof.Machine
end

section
/-! SUPPORT. Which flags and registers an instruction can write (10_state.md sections 2 and 3, R17, R18, R24). -/

namespace Sys2Proof.Machine

/-! ### What the shared operations leave of the registers -/

@[simp] theorem push_a (s : State) (v : Byte) : (push s v).a = s.a := by simp [push]
@[simp] theorem push_x (s : State) (v : Byte) : (push s v).x = s.x := by simp [push]
@[simp] theorem push_y (s : State) (v : Byte) : (push s v).y = s.y := by simp [push]
@[simp] theorem push_p (s : State) (v : Byte) : (push s v).p = s.p := by simp [push]

@[simp] theorem pull_a (s : State) : (pull s).2.a = s.a := by simp [pull]
@[simp] theorem pull_x (s : State) : (pull s).2.x = s.x := by simp [pull]
@[simp] theorem pull_y (s : State) : (pull s).2.y = s.y := by simp [pull]
@[simp] theorem pull_p (s : State) : (pull s).2.p = s.p := by simp [pull]

@[simp] theorem pushWord_p (s : State) (w : Word) : (pushWord s w).p = s.p := by simp [pushWord]
@[simp] theorem pullWord_p (s : State) : (pullWord s).2.p = s.p := by simp [pullWord]

/-- Entering an exception sets I and no other flag (R121, R140). -/
theorem takeException_p (ret : Word) (b : Bool) (vec : Word) (s : State) :
    (takeException ret b vec s).p = { s.p with i := true } := by
  simp [takeException, read16]

@[simp] theorem branchOp_p (off : Int) (c : Bool) (s : State) : (branchOp off c s).p = s.p := by
  unfold branchOp
  split <;> rfl

/-! ### Flags -/

/-- The instructions that write V (R24). -/
def vWriters : List Mnemonic := [.ADC, .SBC, .BIT, .CLV, .PLP, .RTI]

/-- The instructions that write C (R24). -/
def cWriters : List Mnemonic := [.ADC, .SBC, .CMP, .CPX, .CPY, .ASL, .LSR, .ROL, .ROR, .CLC, .SEC, .PLP, .RTI]

/-- The instructions that write D (R24). -/
def dWriters : List Mnemonic := [.CLD, .SED, .PLP, .RTI]

/-- The instructions that write I (R24). -/
def iWriters : List Mnemonic := [.CLI, .SEI, .PLP, .RTI, .BRK]

/-- The instructions that write neither N nor Z (R24). -/
def nzKeepers : List Mnemonic :=
  [.STA, .STX, .STY, .TXS, .PHA, .PHP, .JMP, .JSR, .RTS, .BRK, .BPL, .BMI, .BVC, .BVS, .BCC, .BCS, .BNE,
    .BEQ, .CLC, .SEC, .CLD, .SED, .CLI, .SEI, .CLV, .NOP]

/-- The flags `q` differ from `p` only where R24 lets `m` write. -/
structure FlagsKept (m : Mnemonic) (p q : Flags) : Prop where
  v  : m ∉ vWriters → q.v = p.v
  c  : m ∉ cWriters → q.c = p.c
  d  : m ∉ dWriters → q.d = p.d
  i  : m ∉ iWriters → q.i = p.i
  nz : m ∈ nzKeepers → q.n = p.n ∧ q.z = p.z

/-! The memberships below are equations of `decide`, so that `rfl` proves them of an instruction with any operand. -/

section
variable {m : Mnemonic} {p q : Flags}

theorem flagsKept_of_eq (h : q = p) : FlagsKept m p q := by
  subst h
  exact ⟨fun _ => rfl, fun _ => rfl, fun _ => rfl, fun _ => rfl, fun _ => ⟨rfl, rfl⟩⟩

theorem flagsKept_setNZ (hnz : decide (m ∈ nzKeepers) = false) (r : Byte) (p : Flags) : FlagsKept m p (setNZ r p) :=
  ⟨fun _ => rfl, fun _ => rfl, fun _ => rfl, fun _ => rfl,
    fun h => absurd h (of_decide_eq_false hnz)⟩

theorem flagsKept_setNZ_carry (hc : decide (m ∈ cWriters) = true) (hnz : decide (m ∈ nzKeepers) = false) (r : Byte)
    (c : Bool) (p : Flags) :
    FlagsKept m p (setNZ r { p with c := c }) :=
  ⟨fun _ => rfl, fun h => absurd (of_decide_eq_true hc) h, fun _ => rfl, fun _ => rfl,
    fun h => absurd h (of_decide_eq_false hnz)⟩

theorem flagsKept_flagsOfSum (hv : decide (m ∈ vWriters) = true) (hc : decide (m ∈ cWriters) = true)
    (hnz : decide (m ∈ nzKeepers) = false) (r : Sum) (p : Flags) :
    FlagsKept m p (flagsOfSum r p) :=
  ⟨fun h => absurd (of_decide_eq_true hv) h, fun h => absurd (of_decide_eq_true hc) h, fun _ => rfl, fun _ => rfl,
    fun h => absurd h (of_decide_eq_false hnz)⟩

theorem flagsKept_flagsOfBit (hv : decide (m ∈ vWriters) = true) (hnz : decide (m ∈ nzKeepers) = false) (a b : Byte)
    (p : Flags) :
    FlagsKept m p (flagsOfBit a b p) :=
  ⟨fun h => absurd (of_decide_eq_true hv) h, fun _ => rfl, fun _ => rfl, fun _ => rfl,
    fun h => absurd h (of_decide_eq_false hnz)⟩

theorem flagsKept_setC (hc : decide (m ∈ cWriters) = true) (b : Bool) (p : Flags) : FlagsKept m p { p with c := b } :=
  ⟨fun _ => rfl, fun h => absurd (of_decide_eq_true hc) h, fun _ => rfl, fun _ => rfl, fun _ => ⟨rfl, rfl⟩⟩

theorem flagsKept_setD (hd : decide (m ∈ dWriters) = true) (b : Bool) (p : Flags) : FlagsKept m p { p with d := b } :=
  ⟨fun _ => rfl, fun _ => rfl, fun h => absurd (of_decide_eq_true hd) h, fun _ => rfl, fun _ => ⟨rfl, rfl⟩⟩

theorem flagsKept_setI (hi : decide (m ∈ iWriters) = true) (b : Bool) (p : Flags) : FlagsKept m p { p with i := b } :=
  ⟨fun _ => rfl, fun _ => rfl, fun _ => rfl, fun h => absurd (of_decide_eq_true hi) h, fun _ => ⟨rfl, rfl⟩⟩

theorem flagsKept_setV (hv : decide (m ∈ vWriters) = true) (b : Bool) (p : Flags) : FlagsKept m p { p with v := b } :=
  ⟨fun h => absurd (of_decide_eq_true hv) h, fun _ => rfl, fun _ => rfl, fun _ => rfl, fun _ => ⟨rfl, rfl⟩⟩

/-- PLP and RTI write all six flags. -/
theorem flagsKept_pulled (hm : m = .PLP ∨ m = .RTI) (p q : Flags) : FlagsKept m p q := by
  rcases hm with rfl | rfl
  all_goals exact ⟨fun h => absurd (by decide) h, fun h => absurd (by decide) h, fun h => absurd (by decide) h,
    fun h => absurd (by decide) h, fun h => absurd h (by decide)⟩

/-- A reading instruction writes the flags its operation on the loaded byte writes. -/
theorem flagsKept_readOp {f : Byte → State → State} (hf : ∀ r u, FlagsKept m u.p (f r u).p) (o : Operand) (n : Nat)
    (s : State) : FlagsKept m s.p (readOp o n f s).p := by
  rw [← loadOperand_p o s]
  exact hf _ _

/-- A read-modify-write instruction writes the flags its operation on the byte writes. -/
theorem flagsKept_modifyOp {f : Byte → Flags → Byte × Flags} (hf : ∀ r u, FlagsKept m u (f r u).2) (k : MemMode)
    (n : Nat) (s : State) : FlagsKept m s.p (modifyOp k n f s).p := hf _ s.p

theorem flagsKept_storeOp (k : MemMode) (n : Nat) (r : Byte) (s : State) : FlagsKept m s.p (storeOp k n r s).p :=
  flagsKept_of_eq (by simp [storeOp_eq])

end

/-- Every instruction answers a next state, whose flags differ only where R24 lets it write: the effects on the flags, one
group of instructions each. -/
theorem exec_flagsKept (i : Instr) (s : State) : ∃ t, exec i s = .next t ∧ FlagsKept i.mnemonic s.p t.p := by
  cases i with
  | ldaImm | ldaZp | ldaZpX | ldaAbs | ldaAbsX | ldaAbsY | ldaIndX | ldaIndY
  | ldxImm | ldxZp | ldxZpY | ldxAbs | ldxAbsY | ldyImm | ldyZp | ldyZpX | ldyAbs | ldyAbsX
  | andImm | andZp | andZpX | andAbs | andAbsX | andAbsY | andIndX | andIndY
  | oraImm | oraZp | oraZpX | oraAbs | oraAbsX | oraAbsY | oraIndX | oraIndY
  | eorImm | eorZp | eorZpX | eorAbs | eorAbsX | eorAbsY | eorIndX | eorIndY =>
    exact ⟨_, rfl, flagsKept_readOp (fun _ u => flagsKept_setNZ rfl _ u.p) _ _ s⟩
  | adcImm | adcZp | adcZpX | adcAbs | adcAbsX | adcAbsY | adcIndX | adcIndY
  | sbcImm | sbcZp | sbcZpX | sbcAbs | sbcAbsX | sbcAbsY | sbcIndX | sbcIndY =>
    exact ⟨_, rfl, flagsKept_readOp (fun _ u => flagsKept_flagsOfSum rfl rfl rfl _ u.p) _ _ s⟩
  | cmpImm | cmpZp | cmpZpX | cmpAbs | cmpAbsX | cmpAbsY | cmpIndX | cmpIndY
  | cpxImm | cpxZp | cpxAbs | cpyImm | cpyZp | cpyAbs =>
    exact ⟨_, rfl, flagsKept_readOp (fun _ u => flagsKept_setNZ_carry rfl rfl _ _ u.p) _ _ s⟩
  | bitZp | bitAbs =>
    exact ⟨_, rfl, flagsKept_readOp (fun _ u => flagsKept_flagsOfBit rfl rfl _ _ u.p) _ _ s⟩
  | staZp | staZpX | staAbs | staAbsX | staAbsY | staIndX | staIndY | stxZp | stxZpY | stxAbs | styZp | styZpX | styAbs =>
    exact ⟨_, rfl, flagsKept_storeOp _ _ _ s⟩
  | incZp | incZpX | incAbs | incAbsX | decZp | decZpX | decAbs | decAbsX =>
    exact ⟨_, rfl, flagsKept_modifyOp (fun _ u => flagsKept_setNZ rfl _ u) _ _ s⟩
  | aslZp | aslZpX | aslAbs | aslAbsX | lsrZp | lsrZpX | lsrAbs | lsrAbsX
  | rolZp | rolZpX | rolAbs | rolAbsX | rorZp | rorZpX | rorAbs | rorAbsX =>
    exact ⟨_, rfl, flagsKept_modifyOp (fun _ u => flagsKept_setNZ_carry rfl rfl _ _ u) _ _ s⟩
  | aslAcc | lsrAcc | rolAcc | rorAcc => exact ⟨_, rfl, flagsKept_setNZ_carry rfl rfl _ _ s.p⟩
  | tax | tay | txa | tya | tsx | inx | iny | dex | dey => exact ⟨_, rfl, flagsKept_setNZ rfl _ s.p⟩
  | pla => exact ⟨_, rfl, pull_p s ▸ flagsKept_setNZ rfl _ (pull s).2.p⟩
  | bpl | bmi | bvc | bvs | bcc | bcs | bne | beq => exact ⟨_, rfl, flagsKept_of_eq (branchOp_p _ _ s)⟩
  | txs | nop | jmpAbs => exact ⟨_, rfl, flagsKept_of_eq rfl⟩
  | pha | php => exact ⟨_, rfl, flagsKept_of_eq (push_p s _)⟩
  | jmpInd => exact ⟨_, rfl, flagsKept_of_eq (by simp [indirectTarget])⟩
  | jsrAbs => exact ⟨_, rfl, flagsKept_of_eq (pushWord_p s _)⟩
  | rts => exact ⟨_, rfl, flagsKept_of_eq (pullWord_p s)⟩
  | plp => exact ⟨_, rfl, flagsKept_pulled (.inl rfl) _ _⟩
  | rti => exact ⟨_, rfl, flagsKept_pulled (.inr rfl) _ _⟩
  | brk => exact ⟨_, rfl, takeException_p _ _ _ s ▸ flagsKept_setI rfl true s.p⟩
  | clc | sec => exact ⟨_, rfl, flagsKept_setC rfl _ s.p⟩
  | cld | sed => exact ⟨_, rfl, flagsKept_setD rfl _ s.p⟩
  | cli | sei => exact ⟨_, rfl, flagsKept_setI rfl _ s.p⟩
  | clv => exact ⟨_, rfl, flagsKept_setV rfl _ s.p⟩

/-- Settles O23, from the groups of `exec_flagsKept`. -/
theorem flagsAreWrittenOnlyByTheirInstructions : Obligations.FlagsAreWrittenOnlyByTheirInstructions := by
  intro i s t h
  obtain ⟨t', ht', hv, hc, hd, hi, hnz⟩ := exec_flagsKept i s
  obtain rfl : t' = t := by simpa [h] using ht'.symm
  exact ⟨hv, hc, hd, hi, hnz⟩

/-! ### Registers -/

/-- The instructions that write A in a mode other than accumulator (R17). -/
def aWriters : List Mnemonic := [.LDA, .TXA, .TYA, .ADC, .SBC, .AND, .ORA, .EOR, .PLA]

/-- The instructions that write X (R17). -/
def xWriters : List Mnemonic := [.LDX, .TAX, .TSX, .INX, .DEX]

/-- The instructions that write Y (R17). -/
def yWriters : List Mnemonic := [.LDY, .TAY, .INY, .DEY]

/-- The instructions that write S (R18). -/
def spWriters : List Mnemonic := [.TXS, .PHA, .PHP, .PLA, .PLP, .JSR, .RTS, .RTI, .BRK]

/-- `t` has the A, X and Y of `s`. -/
def SameAXY (s t : State) : Prop := t.a = s.a ∧ t.x = s.x ∧ t.y = s.y

/-- The registers of `t` differ from those of `s` only where R17 and R18 let mnemonic `m` in mode `k` write. -/
structure RegsKept (m : Mnemonic) (k : Mode) (s t : State) : Prop where
  a  : m ∉ aWriters → k ≠ .accumulator → t.a = s.a
  x  : m ∉ xWriters → t.x = s.x
  y  : m ∉ yWriters → t.y = s.y
  sp : m ∉ spWriters → t.sp = s.sp

section
variable {m : Mnemonic} {k : Mode} {s t : State}

theorem regsKept_of_eq (h : SameAXY s t) (hsp : t.sp = s.sp) : RegsKept m k s t := by
  obtain ⟨ha, hx, hy⟩ := h
  exact ⟨fun _ _ => ha, fun _ => hx, fun _ => hy, fun _ => hsp⟩

theorem regsKept_setP (f : Flags) (s : State) : RegsKept m k s (setP s f) := regsKept_of_eq ⟨rfl, rfl, rfl⟩ rfl

theorem regsKept_setA (ha : decide (m ∈ aWriters) = true) (v : Byte) (f : Flags) (s : State) :
    RegsKept m k s (setP (setA s v) f) :=
  ⟨fun h _ => absurd (of_decide_eq_true ha) h, fun _ => rfl, fun _ => rfl, fun _ => rfl⟩

/-- Accumulator mode writes A (R62). -/
theorem regsKept_accumulator (v : Byte) (f : Flags) (s : State) : RegsKept m .accumulator s (setP (setA s v) f) :=
  ⟨fun _ h => absurd rfl h, fun _ => rfl, fun _ => rfl, fun _ => rfl⟩

theorem regsKept_setX (hx : decide (m ∈ xWriters) = true) (v : Byte) (f : Flags) (s : State) :
    RegsKept m k s (setP (setX s v) f) :=
  ⟨fun _ _ => rfl, fun h => absurd (of_decide_eq_true hx) h, fun _ => rfl, fun _ => rfl⟩

theorem regsKept_setY (hy : decide (m ∈ yWriters) = true) (v : Byte) (f : Flags) (s : State) :
    RegsKept m k s (setP (setY s v) f) :=
  ⟨fun _ _ => rfl, fun _ => rfl, fun h => absurd (of_decide_eq_true hy) h, fun _ => rfl⟩

theorem regsKept_stack (hsp : decide (m ∈ spWriters) = true) (h : SameAXY s t) : RegsKept m k s t := by
  obtain ⟨ha, hx, hy⟩ := h
  exact ⟨fun _ _ => ha, fun _ => hx, fun _ => hy, fun h => absurd (of_decide_eq_true hsp) h⟩

/-- PLA writes A and S (R93). -/
theorem regsKept_pullA (s : State) : RegsKept .PLA k s (pullA s) :=
  ⟨fun h => absurd (by decide) h, fun _ => pull_x s, fun _ => pull_y s, fun h => absurd (by decide) h⟩

/-- A reading instruction writes the registers its operation on the loaded byte writes. -/
theorem regsKept_readOp {f : Byte → State → State} (hf : ∀ r u, RegsKept m k u (f r u)) (o : Operand) (n : Nat)
    (s : State) : RegsKept m k s (readOp o n f s) := by
  obtain ⟨ha, hx, hy, hsp⟩ := hf (loadOperand o s).val (loadOperand o s).st
  exact ⟨fun h h' => (ha h h').trans (loadOperand_a o s), fun h => (hx h).trans (loadOperand_x o s),
    fun h => (hy h).trans (loadOperand_y o s), fun h => (hsp h).trans (loadOperand_sp o s)⟩

/-- An implied instruction writes the registers its operation writes. -/
theorem regsKept_impliedOp {f : State → State} (h : RegsKept m k s (f s)) (n : Nat) :
    RegsKept m k s (impliedOp n f s) := ⟨h.a, h.x, h.y, h.sp⟩

theorem regsKept_modifyOp (f : Byte → Flags → Byte × Flags) (e : MemMode) (n : Nat) (s : State) :
    RegsKept m k s (modifyOp e n f s) :=
  regsKept_of_eq (by simp [SameAXY, modifyOp_eq]) (by simp [modifyOp_eq])

theorem regsKept_storeOp (e : MemMode) (n : Nat) (v : Byte) (s : State) : RegsKept m k s (storeOp e n v s) :=
  regsKept_of_eq (by simp [SameAXY, storeOp_eq]) (by simp [storeOp_eq])

theorem regsKept_branchOp (off : Int) (c : Bool) (s : State) : RegsKept m k s (branchOp off c s) := by
  unfold branchOp
  split <;> exact regsKept_of_eq ⟨rfl, rfl, rfl⟩ rfl

end

/-- Every instruction answers a next state, whose registers differ only where R17 and R18 let it write: the effects on the
registers, one group of instructions each. -/
theorem exec_regsKept (i : Instr) (s : State) : ∃ t, exec i s = .next t ∧ RegsKept i.mnemonic i.mode s t := by
  cases i with
  | ldaImm | ldaZp | ldaZpX | ldaAbs | ldaAbsX | ldaAbsY | ldaIndX | ldaIndY
  | adcImm | adcZp | adcZpX | adcAbs | adcAbsX | adcAbsY | adcIndX | adcIndY
  | sbcImm | sbcZp | sbcZpX | sbcAbs | sbcAbsX | sbcAbsY | sbcIndX | sbcIndY
  | andImm | andZp | andZpX | andAbs | andAbsX | andAbsY | andIndX | andIndY
  | oraImm | oraZp | oraZpX | oraAbs | oraAbsX | oraAbsY | oraIndX | oraIndY
  | eorImm | eorZp | eorZpX | eorAbs | eorAbsX | eorAbsY | eorIndX | eorIndY =>
    exact ⟨_, rfl, regsKept_readOp (fun _ u => regsKept_setA rfl _ _ u) _ _ s⟩
  | ldxImm | ldxZp | ldxZpY | ldxAbs | ldxAbsY =>
    exact ⟨_, rfl, regsKept_readOp (fun _ u => regsKept_setX rfl _ _ u) _ _ s⟩
  | ldyImm | ldyZp | ldyZpX | ldyAbs | ldyAbsX =>
    exact ⟨_, rfl, regsKept_readOp (fun _ u => regsKept_setY rfl _ _ u) _ _ s⟩
  | cmpImm | cmpZp | cmpZpX | cmpAbs | cmpAbsX | cmpAbsY | cmpIndX | cmpIndY
  | cpxImm | cpxZp | cpxAbs | cpyImm | cpyZp | cpyAbs | bitZp | bitAbs =>
    exact ⟨_, rfl, regsKept_readOp (fun _ u => regsKept_setP _ u) _ _ s⟩
  | staZp | staZpX | staAbs | staAbsX | staAbsY | staIndX | staIndY | stxZp | stxZpY | stxAbs | styZp | styZpX | styAbs =>
    exact ⟨_, rfl, regsKept_storeOp _ _ _ s⟩
  | incZp | incZpX | incAbs | incAbsX | decZp | decZpX | decAbs | decAbsX
  | aslZp | aslZpX | aslAbs | aslAbsX | lsrZp | lsrZpX | lsrAbs | lsrAbsX
  | rolZp | rolZpX | rolAbs | rolAbsX | rorZp | rorZpX | rorAbs | rorAbsX =>
    exact ⟨_, rfl, regsKept_modifyOp _ _ _ s⟩
  | aslAcc | lsrAcc | rolAcc | rorAcc => exact ⟨_, rfl, regsKept_impliedOp (regsKept_accumulator _ _ s) _⟩
  | txa | tya => exact ⟨_, rfl, regsKept_impliedOp (regsKept_setA rfl _ _ s) _⟩
  | tax | tsx | inx | dex => exact ⟨_, rfl, regsKept_impliedOp (regsKept_setX rfl _ _ s) _⟩
  | tay | iny | dey => exact ⟨_, rfl, regsKept_impliedOp (regsKept_setY rfl _ _ s) _⟩
  | bpl | bmi | bvc | bvs | bcc | bcs | bne | beq => exact ⟨_, rfl, regsKept_branchOp _ _ s⟩
  | clc | sec | cld | sed | cli | sei | clv => exact ⟨_, rfl, regsKept_impliedOp (regsKept_setP _ s) _⟩
  | nop | jmpAbs => exact ⟨_, rfl, regsKept_of_eq ⟨rfl, rfl, rfl⟩ rfl⟩
  | jmpInd => exact ⟨_, rfl, regsKept_of_eq (by simp [SameAXY, indirectTarget]) (by simp [indirectTarget])⟩
  | txs => exact ⟨_, rfl, regsKept_stack rfl ⟨rfl, rfl, rfl⟩⟩
  | pha | php => exact ⟨_, rfl, regsKept_stack rfl ⟨push_a s _, push_x s _, push_y s _⟩⟩
  | pla => exact ⟨_, rfl, regsKept_impliedOp (regsKept_pullA s) _⟩
  | plp => exact ⟨_, rfl, regsKept_stack rfl ⟨pull_a s, pull_x s, pull_y s⟩⟩
  | jsrAbs => exact ⟨_, rfl, regsKept_stack rfl (by simp [SameAXY, jumpSubroutine, pushWord])⟩
  | rts => exact ⟨_, rfl, regsKept_stack rfl (by simp [SameAXY, returnSubroutine, pullWord])⟩
  | rti => exact ⟨_, rfl, regsKept_stack rfl (by simp [SameAXY, returnFromException, pullWord])⟩
  | brk => exact ⟨_, rfl, regsKept_stack rfl (by simp [SameAXY, takeException, read16, pushWord])⟩

/-- Settles O24, from the groups of `exec_regsKept`. -/
theorem registersAreWrittenOnlyByTheirInstructions : Obligations.RegistersAreWrittenOnlyByTheirInstructions := by
  intro i s t h
  obtain ⟨t', ht', ha, hx, hy, hsp⟩ := exec_regsKept i s
  obtain rfl : t' = t := by simpa [h] using ht'.symm
  exact ⟨ha, hx, hy, hsp⟩

end Sys2Proof.Machine
end

section
/-! SUPPORT. The bus by address: the processor port, the bank table and the IO pages (20_memory.md). -/

namespace Sys2Proof.Machine

/-! ### The processor port -/

theorem readSource_port_iff (s : State) (a : Word) : readSource s a = .port ↔ a.toNat < 2 := by
  unfold readSource
  constructor
  · contrapose!
    intro h
    rw [if_neg (by omega)]
    repeat' split
    all_goals simp
  · exact fun h => if_pos h

/-- A read of $0000 gives DDR (R37). -/
theorem memRead_ddrAddr (s : State) : memRead s 0x0000 = (s.ddr, s) := rfl

/-- A read of $0001 gives the port's value (R37). -/
theorem memRead_dataAddr (s : State) : memRead s 0x0001 = (portValue s, s) := rfl

/-- A write to $0000 sets DDR and the RAM byte (R38). -/
theorem memWrite_ddrAddr (s : State) (v : Byte) : memWrite s 0x0000 v = setRam { s with ddr := v } 0x0000 v := rfl

/-- A write to $0001 sets DATA and the RAM byte (R38). -/
theorem memWrite_dataAddr (s : State) (v : Byte) : memWrite s 0x0001 v = setRam { s with data := v } 0x0001 v := rfl

theorem portValue_getLsbD (s : State) {k : Nat} (hk : k < 8) :
    (portValue s).getLsbD k = if s.ddr.getLsbD k then s.data.getLsbD k else true := by
  simp only [portValue, BitVec.getLsbD_or, BitVec.getLsbD_and, BitVec.getLsbD_not, hk, decide_true, Bool.true_and]
  cases s.ddr.getLsbD k <;> simp

/-- Settles O26: the port's reads bit by bit, and its writes as updates of the register and one RAM byte. -/
theorem processorPortReadsAndWrites : Obligations.ProcessorPortReadsAndWrites := by
  intro s v
  refine ⟨memRead_ddrAddr s, congrArg Prod.snd (memRead_dataAddr s), fun k hk => ?_, ⟨?_, ?_, ?_⟩, ⟨?_, ?_, ?_⟩⟩
  · rw [memRead_dataAddr, portValue_getLsbD s hk]
  · rw [memWrite_ddrAddr, setRam_frame]
  · rw [memWrite_ddrAddr, ramByte_setRam_same]
  · exact fun a ha => ramByte_memWrite_other v ha
  · rw [memWrite_dataAddr, setRam_frame]
  · rw [memWrite_dataAddr, ramByte_setRam_same]
  · exact fun a ha => ramByte_memWrite_other v ha

/-! ### The bank table -/

theorem bankCfg_getLsbD (s : State) {k : Nat} (hk : k < 3) :
    (bankCfg s).getLsbD k = (s.data.getLsbD k || !s.ddr.getLsbD k) := by
  simp [bankCfg, hk, show k < 8 by omega]

/-- The configuration is the low three bits of what $0001 reads (R37, R39). -/
theorem bankCfg_eq_portValue (s : State) : bankCfg s = (portValue s).setWidth 3 := by
  apply BitVec.eq_of_getLsbD_eq
  intro k hk
  rw [bankCfg_getLsbD s hk, BitVec.getLsbD_setWidth, portValue_getLsbD s (by omega)]
  cases s.ddr.getLsbD k <;> simp [hk]

theorem bankCfg_toNat (s : State) : (bankCfg s).toNat = (memRead s 0x0001).1.toNat % 8 := by
  rw [memRead_dataAddr, bankCfg_eq_portValue, BitVec.toNat_setWidth]

theorem loram_iff (s : State) : loram s = true ↔ (bankCfg s).toNat % 2 = 1 := by
  simp [loram, BitVec.getLsbD, Nat.testBit_eq_decide_div_mod_eq]

theorem hiram_iff (s : State) : hiram s = true ↔ (bankCfg s).toNat / 2 % 2 = 1 := by
  simp [hiram, BitVec.getLsbD, Nat.testBit_eq_decide_div_mod_eq]

theorem charen_iff (s : State) : charen s = true ↔ (bankCfg s).toNat / 4 = 1 := by
  have := (bankCfg s).isLt
  simp [charen, BitVec.getLsbD, Nat.testBit_eq_decide_div_mod_eq]
  omega

/-- $A000-$BFFF holds BASIC when LORAM and HIRAM are 1 (R40). -/
theorem readSource_basicWindow {s : State} {a : Word} (h : 0xA000 ≤ a.toNat) (h' : a.toNat ≤ 0xBFFF) :
    readSource s a = if loram s = true ∧ hiram s = true then .basic else .ram := by
  unfold readSource
  rw [if_neg (by omega)]
  refine if_congr (by simp [h, h']) rfl ?_
  rw [if_neg (by omega), if_neg (by omega)]

/-- $D000-$DFFF holds IO or CHAR ROM, by CHAREN, when LORAM or HIRAM is 1 (R40). -/
theorem readSource_ioWindow {s : State} {a : Word} (h : 0xD000 ≤ a.toNat) (h' : a.toNat ≤ 0xDFFF) :
    readSource s a =
      if (loram s = true ∨ hiram s = true) ∧ charen s = true then .io
      else if (loram s = true ∨ hiram s = true) ∧ ¬charen s = true then .charRom else .ram := by
  unfold readSource
  rw [if_neg (by omega), if_neg (by omega), if_neg (by omega)]
  by_cases hv : loram s = true ∨ hiram s = true <;> cases charen s <;> simp [h, h', hv]

/-- $0002-$9FFF and $C000-$CFFF are RAM in every configuration (R40). -/
theorem readSource_ramWindow {s : State} {a : Word}
    (h : 2 ≤ a.toNat ∧ a.toNat ≤ 0x9FFF ∨ 0xC000 ≤ a.toNat ∧ a.toNat ≤ 0xCFFF) : readSource s a = .ram := by
  unfold readSource
  rw [if_neg (by omega), if_neg (by omega), if_neg (by omega), if_neg (by omega)]

/-- Settles O27: the three bits as arithmetic on the configuration turn each window's condition into its rows of the
table. -/
theorem bankTable : Obligations.BankTable := by
  intro s a
  have hc := (bankCfg s).isLt
  refine ⟨fun k hk => bankCfg_getLsbD s hk, bankCfg_toNat s, loram_iff s, hiram_iff s, charen_iff s,
    (readSource_port_iff s a).2, fun h h' => ?_, fun h h' => ?_, fun h => ?_, fun h h' => readSource_ramWindow (.inl ⟨h, h'⟩),
    fun h h' => readSource_ramWindow (.inr ⟨h, h'⟩)⟩
  · simp only [readSource_basicWindow h h', loram_iff, hiram_iff]
    exact if_congr (by omega) rfl rfl
  · simp only [readSource_ioWindow h h', loram_iff, hiram_iff, charen_iff]
    exact if_congr (by omega) rfl (if_congr (by omega) rfl rfl)
  · simp only [readSource_high h, hiram_iff]
    exact if_congr (by omega) rfl rfl

/-! ### Writes -/

/-- A RAM store moves no bank. -/
@[simp] theorem readSource_setRam (s : State) (a b : Word) (v : Byte) : readSource (setRam s a v) b = readSource s b :=
  readSource_congr rfl rfl b

theorem memRead_of_ram {s : State} {a : Word} (h : readSource s a = .ram) : memRead s a = (ramByte s a, s) := by
  simp [memRead, h]

/-- Settles O28: outside the port and IO a write is a RAM store, which moves no bank and changes no ROM. -/
theorem ramRoundTrip : Obligations.RamRoundTrip := by
  intro s a b
  refine ⟨fun h => ?_, fun h => ?_⟩
  · rw [memWrite_ram_region b (by simp [h]) (by simp [h]), memRead_of_ram ((readSource_setRam ..).trans h),
      ramByte_setRam_same]
  · rw [memWrite_ram_region b (by rcases h with h | h | h <;> simp [h]) (by rcases h with h | h | h <;> simp [h])]
    refine ⟨?_, fun d r hr => ?_⟩
    · rcases h with h | h | h <;> simp [memRead, h, basicByte, kernalByte, charByte]
    · rw [memRead_of_ram hr]
      exact ramByte_setRam_same s a b

/-- An IO write changes the chips and color RAM at most (R45). -/
theorem ioWrite_frame (s : State) (a : Word) (v : Byte) :
    ioWrite s a v = { s with
      vic := (ioWrite s a v).vic, color := (ioWrite s a v).color, ciaA := (ioWrite s a v).ciaA
      ciaB := (ioWrite s a v).ciaB } := by
  unfold ioWrite
  split <;> rfl

theorem memWrite_port_region {s : State} {a : Word} (v : Byte) (h : readSource s a = .port) :
    memWrite s a v = portWrite s a v := by simp [memWrite, h]

/-- A port write changes RAM, DDR and DATA at most (R38). -/
theorem portWrite_frame (s : State) (a : Word) (v : Byte) :
    portWrite s a v = { s with
      ram := (portWrite s a v).ram, ddr := (portWrite s a v).ddr, data := (portWrite s a v).data } := by
  unfold portWrite
  split <;> rfl

theorem portWrite_ddr (s : State) (a : Word) (v : Byte) : (portWrite s a v).ddr = if a = 0 then v else s.ddr := by
  unfold portWrite
  split <;> rfl

theorem portWrite_data (s : State) (a : Word) (v : Byte) : (portWrite s a v).data = if a = 0 then s.data else v := by
  unfold portWrite
  split <;> rfl

/-- Settles O29, by where the write goes. -/
theorem writeRouting : Obligations.WriteRouting := by
  intro s a v
  refine ⟨fun hp hi => ?_, fun h => ?_, fun h => ?_⟩
  · exact ⟨by rw [memWrite_ram_region v hp hi, setRam_frame], ramByte_memWrite_same v hi,
      fun a' ha => ramByte_memWrite_other v ha⟩
  · rw [memWrite_io_region v h]
    exact ⟨ioWrite_frame s a v, rfl⟩
  · have hram : ramByte (memWrite s a v) a = v := ramByte_memWrite_same v (by simp [h])
    rw [memWrite_port_region v h] at hram ⊢
    exact ⟨portWrite_frame s a v, portWrite_ddr s a v, portWrite_data s a v, hram⟩

/-! ### The IO pages -/

/-- The dispatch bits 11 to 8 of an IO address are its page above $D0. -/
theorem ioPage_toNat {s : State} {a : Word} (h : readSource s a = .io) :
    (a.extractLsb' 8 4).toNat = a.toNat / 256 - 0xD0 := by
  have hw := readSource_io h
  simp only [BitVec.extractLsb'_toNat, Nat.shiftRight_eq_div_pow]
  omega

/-- The device of a mapped IO address, by its page (R44). -/
theorem ioDevice_of_io {s : State} {a : Word} (h : readSource s a = .io) :
    ioDevice a =
      if a.toNat / 256 ≤ 0xD3 then .vicII
      else if a.toNat / 256 ≤ 0xD7 then .unmapped
      else if a.toNat / 256 ≤ 0xDB then .colorRam
      else if a.toNat / 256 = 0xDC then .ciaA
      else if a.toNat / 256 = 0xDD then .ciaB
      else .unmapped := by
  have hw := readSource_io h
  rw [ioDevice, ioPage_toNat h]
  exact if_congr (by omega) rfl (if_congr (by omega) rfl (if_congr (by omega) rfl
    (if_congr (by omega) rfl (if_congr (by omega) rfl rfl))))

section
variable {s : State} {a : Word}

theorem ioDevice_vicII_iff (h : readSource s a = .io) :
    ioDevice a = .vicII ↔ 0xD0 ≤ a.toNat / 256 ∧ a.toNat / 256 ≤ 0xD3 := by
  have hw := readSource_io h
  rw [ioDevice_of_io h]
  split_ifs <;> simp <;> omega

theorem ioDevice_colorRam_iff (h : readSource s a = .io) :
    ioDevice a = .colorRam ↔ 0xD8 ≤ a.toNat / 256 ∧ a.toNat / 256 ≤ 0xDB := by
  rw [ioDevice_of_io h]
  split_ifs <;> simp <;> omega

theorem ioDevice_ciaA_iff (h : readSource s a = .io) : ioDevice a = .ciaA ↔ a.toNat / 256 = 0xDC := by
  rw [ioDevice_of_io h]
  split_ifs <;> simp <;> omega

theorem ioDevice_ciaB_iff (h : readSource s a = .io) : ioDevice a = .ciaB ↔ a.toNat / 256 = 0xDD := by
  rw [ioDevice_of_io h]
  split_ifs <;> simp <;> omega

theorem ioDevice_unmapped_iff (h : readSource s a = .io) :
    ioDevice a = .unmapped ↔ (0xD4 ≤ a.toNat / 256 ∧ a.toNat / 256 ≤ 0xD7) ∨ 0xDE ≤ a.toNat / 256 := by
  have hw := readSource_io h
  rw [ioDevice_of_io h]
  split_ifs <;> simp <;> omega

end

/-- The register index of an IO address is its low bits, here as a number. -/
theorem extractLsb'_zero_eq_ofNat (a : Word) (n : Nat) : a.extractLsb' 0 n = BitVec.ofNat n a.toNat := by
  simp [BitVec.toNat_eq]

theorem colorIndex_eq (a : Word) : colorIndex a = a.toNat % 1024 := by
  simp [colorIndex]

/-! ### The devices -/

section
variable {s : State} {a : Word}

theorem memRead_io_region (h : readSource s a = .io) : memRead s a = ioRead s a := by simp [memRead, h]

theorem ioRead_vicII (h : ioDevice a = .vicII) : ioRead s a = (vicRead s.vic (BitVec.ofNat 6 a.toNat), s) := by
  simp [ioRead, h, extractLsb'_zero_eq_ofNat]

theorem ioRead_colorRam (h : ioDevice a = .colorRam) :
    ioRead s a = (Config.colorHigh s.colorDraws ++ colorCell s (a.toNat % 1024),
      { s with colorDraws := s.colorDraws + 1 }) := by
  simp [ioRead, h, colorIndex_eq]

theorem ioRead_ciaA (h : ioDevice a = .ciaA) :
    ioRead s a = ((ciaRead (keyboardPort s.ciaA s.keys) s.ciaA (BitVec.ofNat 4 a.toNat)).1,
      { s with ciaA := (ciaRead (keyboardPort s.ciaA s.keys) s.ciaA (BitVec.ofNat 4 a.toNat)).2 }) := by
  simp [ioRead, h, extractLsb'_zero_eq_ofNat]

theorem ioRead_ciaB (h : ioDevice a = .ciaB) :
    ioRead s a = ((ciaRead (ciaPortB s.ciaB) s.ciaB (BitVec.ofNat 4 a.toNat)).1,
      { s with ciaB := (ciaRead (ciaPortB s.ciaB) s.ciaB (BitVec.ofNat 4 a.toNat)).2 }) := by
  simp [ioRead, h, extractLsb'_zero_eq_ofNat]

theorem ioRead_unmapped (h : ioDevice a = .unmapped) : ioRead s a = (0xFF, s) := by simp [ioRead, h]

theorem ioWrite_vicII (v : Byte) (h : ioDevice a = .vicII) :
    ioWrite s a v = { s with vic := vicWrite s.vic (BitVec.ofNat 6 a.toNat) v } := by
  simp [ioWrite, h, extractLsb'_zero_eq_ofNat]

theorem ioWrite_colorRam (v : Byte) (h : ioDevice a = .colorRam) :
    ioWrite s a v = { s with color := Memory.write Config.colorFill s.color (a.toNat % 1024) (v.setWidth 4) } := by
  simp [ioWrite, h, colorIndex_eq]

theorem ioWrite_ciaA (v : Byte) (h : ioDevice a = .ciaA) :
    ioWrite s a v = { s with ciaA := ciaWrite s.ciaA (BitVec.ofNat 4 a.toNat) v } := by
  simp [ioWrite, h, extractLsb'_zero_eq_ofNat]

theorem ioWrite_ciaB (v : Byte) (h : ioDevice a = .ciaB) :
    ioWrite s a v = { s with ciaB := ciaWrite s.ciaB (BitVec.ofNat 4 a.toNat) v } := by
  simp [ioWrite, h, extractLsb'_zero_eq_ofNat]

theorem ioWrite_unmapped (v : Byte) (h : ioDevice a = .unmapped) : ioWrite s a v = s := by simp [ioWrite, h]

/-- The low nibble of a color RAM read is the cell, whatever was drawn for the high one (R46). -/
theorem colorHigh_append_toNat_mod (d : Nat) (c : Nibble) : (Config.colorHigh d ++ c).toNat % 16 = c.toNat := by
  have h : (Config.colorHigh d ++ c).setWidth 4 = c := BitVec.setWidth_append_eq_right
  simpa using congrArg BitVec.toNat h

end

/-- Settles O30: each page is its device, and each device has its equation. -/
theorem ioDispatchByPage : Obligations.IoDispatchByPage := by
  intro s a v h
  rw [memRead_io_region h, memWrite_io_region v h]
  refine ⟨fun hlo hhi => ?_, fun hlo hhi => ?_, fun hpg => ?_, fun hpg => ?_, fun hpg => ?_⟩
  · have hd := (ioDevice_vicII_iff h).2 ⟨hlo, hhi⟩
    exact ⟨ioRead_vicII hd, ioWrite_vicII v hd⟩
  · have hd := (ioDevice_colorRam_iff h).2 ⟨hlo, hhi⟩
    rw [ioRead_colorRam hd, ioWrite_colorRam v hd]
    exact ⟨colorHigh_append_toNat_mod .., rfl, Memory.read_write_same .., fun k hk => Memory.read_write_other _ _ _ hk⟩
  · have hd := (ioDevice_ciaA_iff h).2 hpg
    exact ⟨ioRead_ciaA hd, ioWrite_ciaA v hd⟩
  · have hd := (ioDevice_ciaB_iff h).2 hpg
    exact ⟨ioRead_ciaB hd, ioWrite_ciaB v hd⟩
  · have hd := (ioDevice_unmapped_iff h).2 hpg
    exact ⟨ioRead_unmapped hd, ioWrite_unmapped v hd⟩

/-! ### The side effects of a read -/

/-- The ICR is register 13, so it repeats every 16 bytes (R44, R179). -/
theorem ofNat_eq_icr_iff (n : Nat) : BitVec.ofNat 4 n = 13 ↔ n % 16 = 13 := by
  simp [BitVec.toNat_eq]

/-- Settles O25: outside IO a read changes nothing, and inside it the device's equation names the one change. -/
theorem readsHaveOnlyTheIcrSideEffect : Obligations.ReadsHaveOnlyTheIcrSideEffect := by
  intro s a
  refine ⟨memRead_pure, fun h hpg hr => ?_, fun h hpg hr => ?_, fun h hlo hhi => ?_, fun h hA hB hC => ?_⟩
  · rw [memRead_io_region h, ioRead_ciaA ((ioDevice_ciaA_iff h).2 hpg), ciaRead_state, if_pos ((ofNat_eq_icr_iff _).2 hr)]
  · rw [memRead_io_region h, ioRead_ciaB ((ioDevice_ciaB_iff h).2 hpg), ciaRead_state, if_pos ((ofNat_eq_icr_iff _).2 hr)]
  · rw [memRead_io_region h, ioRead_colorRam ((ioDevice_colorRam_iff h).2 ⟨hlo, hhi⟩)]
  · rw [memRead_io_region h]
    cases hd : ioDevice a with
    | vicII => rw [ioRead_vicII hd]
    | colorRam => exact absurd ((ioDevice_colorRam_iff h).1 hd) hC
    | ciaA =>
      have hr : ¬a.toNat % 16 = 13 := fun hr => hA ⟨(ioDevice_ciaA_iff h).1 hd, hr⟩
      rw [ioRead_ciaA hd, ciaRead_state, if_neg (mt (ofNat_eq_icr_iff _).1 hr)]
    | ciaB =>
      have hr : ¬a.toNat % 16 = 13 := fun hr => hB ⟨(ioDevice_ciaB_iff h).1 hd, hr⟩
      rw [ioRead_ciaB hd, ciaRead_state, if_neg (mt (ofNat_eq_icr_iff _).1 hr)]
    | unmapped => rw [ioRead_unmapped hd]

end Sys2Proof.Machine
end

section
/-! SUPPORT. The decoder and the encoder are inverse, and the opcodes without a row (30_encoding.md, R57, R60, R75, R76). -/

namespace Sys2Proof

open Machine

/-! ### Branch offsets (R60, R73) -/

theorem sext8_eq_toInt (b : Byte) : sext8 b = b.toInt := by simp [sext8, BitVec.toInt_eq_msb_cond]

theorem offsetInRange_iff (off : Int) : offsetInRange off = true ↔ -128 ≤ off ∧ off ≤ 127 := by simp [offsetInRange]

theorem offsetInRange_sext8 (b : Byte) : offsetInRange (sext8 b) = true := by
  have hlo := b.le_toInt
  have hhi := b.toInt_lt
  rw [offsetInRange_iff, sext8_eq_toInt]
  omega

theorem offsetByte_sext8 (b : Byte) : offsetByte (sext8 b) = b := by rw [sext8_eq_toInt, offsetByte, BitVec.ofInt_toInt]

theorem sext8_offsetByte {off : Int} (h : offsetInRange off = true) : sext8 (offsetByte off) = off := by
  obtain ⟨hlo, hhi⟩ := (offsetInRange_iff off).1 h
  rw [sext8_eq_toInt, offsetByte, BitVec.toInt_ofInt]
  exact Int.bmod_eq_of_le (by omega) (by omega)

/-! ### The decoder by the shape of the opcode (R57, R58) -/

theorem decode_f1 {op : Byte} {i : Instr} (h : lookupShape op = some (.f1 i)) (rest : List Byte) :
    decode (op :: rest) = some (i, rest) := by simp [decode, h]

theorem decode_f2 {op : Byte} {k : Byte → Instr} (h : lookupShape op = some (.f2 k)) (b : Byte) (rest : List Byte) :
    decode (op :: b :: rest) = some (k b, rest) := by simp [decode, h]

theorem decode_f3 {op : Byte} {k : Word → Instr} (h : lookupShape op = some (.f3 k)) (w : Word) (rest : List Byte) :
    decode (bytes3 op w ++ rest) = some (k w, rest) := by simp [decode, bytes3, h]

theorem decode_branch {op : Byte} {k : Int → Instr} (h : lookupShape op = some (.f2 fun b => k (sext8 b))) {off : Int}
    (hoff : offsetInRange off = true) (rest : List Byte) : decode (op :: offsetByte off :: rest) = some (k off, rest) := by
  rw [decode_f2 h, sext8_offsetByte hoff]

/-- Bytes that decode are an opcode of the map, its operand bytes and the tail. -/
theorem decode_cases {bs rest : List Byte} {i : Instr} (h : decode bs = some (i, rest)) :
    ∃ op, (lookupShape op = some (.f1 i) ∧ bs = op :: rest) ∨
      (∃ k b, lookupShape op = some (.f2 k) ∧ i = k b ∧ bs = op :: b :: rest) ∨
      ∃ k w, lookupShape op = some (.f3 k) ∧ i = k w ∧ bs = bytes3 op w ++ rest := by
  unfold decode at h
  split at h
  · cases h
  · rename_i op tail
    refine ⟨op, ?_⟩
    split at h <;> cases h
    case h_2 hsh => exact .inl ⟨hsh, rfl⟩
    case h_3 k b hsh => exact .inr (.inl ⟨k, b, hsh, rfl, rfl⟩)
    case h_4 k lo hi hsh => exact .inr (.inr ⟨k, mkWord lo hi, hsh, rfl, by simp [bytes3]⟩)

/-- Settles O1, by the format of the instruction: no operand, a branch offset, a word, and for all others one operand byte. -/
theorem decodeOfEncodedInstruction : Obligations.DecodeOfEncodedInstruction := by
  intro i rest hwf
  cases i with
  | tax | tay | txa | tya | tsx | txs | pha | php | pla | plp | inx | iny | dex | dey | aslAcc | lsrAcc | rolAcc | rorAcc
  | rts | rti | brk | clc | sec | cld | sed | cli | sei | clv | nop => exact decode_f1 rfl rest
  | bpl off | bmi off | bvc off | bvs off | bcc off | bcs off | bne off | beq off => exact decode_branch rfl hwf rest
  | ldaAbs w | ldaAbsX w | ldaAbsY w | ldxAbs w | ldxAbsY w | ldyAbs w | ldyAbsX w | staAbs w | staAbsX w | staAbsY w
  | stxAbs w | styAbs w | adcAbs w | adcAbsX w | adcAbsY w | sbcAbs w | sbcAbsX w | sbcAbsY w | cmpAbs w | cmpAbsX w
  | cmpAbsY w | cpxAbs w | cpyAbs w | incAbs w | incAbsX w | decAbs w | decAbsX w | andAbs w | andAbsX w | andAbsY w
  | oraAbs w | oraAbsX w | oraAbsY w | eorAbs w | eorAbsX w | eorAbsY w | bitAbs w | aslAbs w | aslAbsX w | lsrAbs w
  | lsrAbsX w | rolAbs w | rolAbsX w | rorAbs w | rorAbsX w | jmpAbs w | jmpInd w | jsrAbs w => exact decode_f3 rfl w rest
  | _ b => exact decode_f2 rfl b rest

theorem decode_of_encode_eq {i : Instr} {bs : List Byte} (hwf : i.wellFormed = true) (he : encode i = bs) :
    decode bs = some (i, []) := by
  rw [← he, ← List.append_nil (encode i)]
  exact decodeOfEncodedInstruction i [] hwf

/-- Settles O3: each word is the encoding of its instruction. -/
theorem opcodeWordsOfTheMap : Obligations.OpcodeWordsOfTheMap := by
  and_intros <;> exact decode_of_encode_eq rfl (by decide)

/-! ### The rows of the map are what the encoder writes (R75) -/

theorem lookupShape_mem {op : Byte} {sh : Shape} (h : lookupShape op = some sh) : (op, sh) ∈ opcodeMap := by
  simp only [lookupShape, Option.map_eq_some_iff] at h
  obtain ⟨⟨op', _⟩, hfind, rfl⟩ := h
  have hop : op' = op := by simpa using List.find?_some hfind
  exact hop ▸ List.mem_of_find?_eq_some hfind

/-- Every instruction of the shape is well-formed and its encoding is `op` and the operand bytes. -/
def Shape.EncodesAs (op : Byte) : Shape → Prop
  | .f1 i => i.wellFormed = true ∧ encode i = [op]
  | .f2 k => ∀ b, (k b).wellFormed = true ∧ encode (k b) = [op, b]
  | .f3 k => ∀ w, (k w).wellFormed = true ∧ encode (k w) = bytes3 op w

theorem encodesAs_branch {op : Byte} {k : Int → Instr} (hwf : ∀ off, (k off).wellFormed = offsetInRange off)
    (he : ∀ off, encode (k off) = [op, offsetByte off]) : Shape.EncodesAs op (.f2 fun b => k (sext8 b)) :=
  fun b => ⟨by rw [hwf, offsetInRange_sext8], by rw [he, offsetByte_sext8]⟩

theorem branches_encodeAs :
    Shape.EncodesAs 0x10 (.f2 fun b => .bpl (sext8 b)) ∧ Shape.EncodesAs 0x30 (.f2 fun b => .bmi (sext8 b)) ∧
    Shape.EncodesAs 0x50 (.f2 fun b => .bvc (sext8 b)) ∧ Shape.EncodesAs 0x70 (.f2 fun b => .bvs (sext8 b)) ∧
    Shape.EncodesAs 0x90 (.f2 fun b => .bcc (sext8 b)) ∧ Shape.EncodesAs 0xB0 (.f2 fun b => .bcs (sext8 b)) ∧
    Shape.EncodesAs 0xD0 (.f2 fun b => .bne (sext8 b)) ∧ Shape.EncodesAs 0xF0 (.f2 fun b => .beq (sext8 b)) := by
  and_intros <;> exact encodesAs_branch (fun _ => rfl) fun _ => rfl

/-- Row by row: a branch re-encodes its offset, and every other row encodes by definition. -/
theorem opcodeMap_encodesAs : ∀ r ∈ opcodeMap, r.2.EncodesAs r.1 := by
  simp only [opcodeMap, opcodeRow0, opcodeRow1, opcodeRow2, opcodeRow3, opcodeRow4, opcodeRow5, opcodeRow6, opcodeRow7,
    opcodeRow8, opcodeRow9, opcodeRowA, opcodeRowB, opcodeRowC, opcodeRowD, opcodeRowE, opcodeRowF,
    List.forall_mem_append, List.forall_mem_cons, List.not_mem_nil, false_imp_iff, implies_true, true_and, and_true,
    branches_encodeAs]
  simp only [Shape.EncodesAs, forall_and]
  and_intros <;> intros <;> rfl

theorem encodesAs_of_lookupShape {op : Byte} {sh : Shape} (h : lookupShape op = some sh) : sh.EncodesAs op :=
  opcodeMap_encodesAs _ (lookupShape_mem h)

/-- Settles O2: the decoded bytes are a row of the map and its operand, which is what the encoder writes. -/
theorem encodeOfDecodedBytes : Obligations.EncodeOfDecodedBytes := by
  intro bs rest i h
  obtain ⟨op, ⟨hsh, rfl⟩ | ⟨k, b, hsh, rfl, rfl⟩ | ⟨k, w, hsh, rfl, rfl⟩⟩ := decode_cases h
  · obtain ⟨hwf, he⟩ := encodesAs_of_lookupShape hsh
    exact ⟨hwf, by rw [he]; rfl⟩
  · obtain ⟨hwf, he⟩ := encodesAs_of_lookupShape hsh b
    exact ⟨hwf, by rw [he]; rfl⟩
  · obtain ⟨hwf, he⟩ := encodesAs_of_lookupShape hsh w
    exact ⟨hwf, by rw [he]⟩

/-! ### Illegal opcodes (R76) -/

theorem lookupShape_eq_none_iff (op : Byte) : lookupShape op = none ↔ op ∉ opcodeMap.map Prod.fst := by
  rw [lookupShape, Option.map_eq_none_iff, List.find?_eq_none, List.mem_map]
  simp only [beq_iff_eq, not_exists, not_and]

/-- Every byte, once. -/
def allBytes : List Byte := (List.finRange 256).map BitVec.ofFin

theorem mem_allBytes (op : Byte) : op ∈ allBytes := List.mem_map.2 ⟨op.toFin, List.mem_finRange _, rfl⟩

theorem nodup_allBytes : allBytes.Nodup := (List.nodup_finRange 256).map fun _ _ h => congrArg BitVec.toFin h

/-- The opcodes of the map and the illegal ones share the 256 bytes out between them. -/
theorem opcodes_perm_allBytes : (opcodeMap.map Prod.fst ++ Forms.illegalOpcodes).Perm allBytes := by decide +kernel

theorem notMem_opcodeMap_iff (op : Byte) : op ∉ opcodeMap.map Prod.fst ↔ op ∈ Forms.illegalOpcodes := by
  have hmem : op ∈ opcodeMap.map Prod.fst ++ Forms.illegalOpcodes := opcodes_perm_allBytes.mem_iff.2 (mem_allBytes op)
  have hdisj := List.disjoint_of_nodup_append (opcodes_perm_allBytes.nodup_iff.2 nodup_allBytes)
  exact ⟨fun h => (List.mem_append.1 hmem).resolve_left h, fun hill hmap => hdisj hmap hill⟩

theorem lookupShape_eq_none_iff_illegal (op : Byte) : lookupShape op = none ↔ op ∈ Forms.illegalOpcodes :=
  (lookupShape_eq_none_iff op).trans (notMem_opcodeMap_iff op)

/-- Settles O4: the fetch stops at the opcode read, and the fault record is all that the step adds. -/
theorem illegalOpcodesAreFatal : Obligations.IllegalOpcodesAreFatal := by
  refine ⟨lookupShape_eq_none_iff_illegal, rfl, fun s hf hn hop => ?_⟩
  rw [cpuStep_fetch hf hn, fetch_illegal ((lookupShape_eq_none_iff_illegal _).2 hop)]
  simp only [raiseFatal, memRead_pc]

end Sys2Proof
end

section
/-! SUPPORT. The addressing modes and the branches in numbers (30_encoding.md section 3, R63 to R73, R209). -/

namespace Sys2Proof.Machine

/-! ### Addressing modes -/

theorem zeroPage_eq_ofNat (b : Byte) : zeroPage b = BitVec.ofNat 16 b.toNat := by
  apply BitVec.eq_of_toNat_eq
  rw [zeroPage_toNat, BitVec.toNat_ofNat]
  omega

/-- A zero-page pointer `z` in numbers: both bytes come from page 0 (R71, R72). -/
theorem zeroPagePointer_toNat (s : State) {p : Byte} {z : Nat} (h : p.toNat = z % 256) :
    (zeroPagePointer s p).1.toNat = (memRead s (BitVec.ofNat 16 (z % 256))).1.toNat +
      256 * (memRead s (BitVec.ofNat 16 ((z + 1) % 256))).1.toNat := by
  simp [zeroPagePointer_eq, zeroPage_eq_ofNat, h]

theorem indexed_addr_toNat (base : Word) (i : Byte) (s : State) :
    (indexed base i s).addr.toNat = (base.toNat + i.toNat) % 65536 := by simp [indexed, BitVec.toNat_add]

theorem indexed_crossed (base : Word) (i : Byte) (s : State) :
    (indexed base i s).crossed = decide (base.toNat / 256 ≠ (base.toNat + i.toNat) % 65536 / 256) := by
  rw [← indexed_addr_toNat base i s]
  simp [indexed, page_eq_iff]

/-- Settles O41, mode by mode. -/
theorem addressingModes : Obligations.AddressingModes := by
  intro s b w ptr is cross
  have hptr : (zeroPagePointer s b).1.toNat = ptr b.toNat := zeroPagePointer_toNat s (Nat.mod_eq_of_lt b.isLt).symm
  have hindY : is (.indY b) ((ptr b.toNat + s.y.toNat) % 65536) (cross (ptr b.toNat) s.y.toNat) := by
    rw [← hptr]
    exact ⟨indexed_addr_toNat .., indexed_crossed .., effectiveAddress_st ..⟩
  exact ⟨⟨zeroPage_toNat b, rfl, rfl⟩, ⟨zeroPage_toNat _, rfl, rfl⟩, ⟨zeroPage_toNat _, rfl, rfl⟩, ⟨rfl, rfl, rfl⟩,
    ⟨indexed_addr_toNat .., indexed_crossed .., rfl⟩, ⟨indexed_addr_toNat .., indexed_crossed .., rfl⟩,
    ⟨zeroPagePointer_toNat s (BitVec.toNat_add ..), rfl, effectiveAddress_st ..⟩, hindY, loadOperand_imm b s,
    fun m => loadOperand_mem m s⟩

/-! ### Branches -/

theorem branchNext_toNat (s : State) : ((branchNext s).toNat : Int) = (s.pc.toNat + 2) % 65536 := by
  simp [branchNext, BitVec.toNat_add]

theorem branchTarget_toNat (off : Int) (s : State) :
    ((branchTarget off s).toNat : Int) = (s.pc.toNat + 2 + off) % 65536 := by
  simp [branchTarget, branchNext, BitVec.toNat_add, BitVec.toNat_ofInt]
  omega

theorem page_branchTarget_iff (off : Int) (s : State) : page (branchTarget off s) = page (branchNext s) ↔
    (s.pc.toNat + 2 + off) % 65536 / 256 = (s.pc.toNat + 2 : Int) % 65536 / 256 := by
  rw [page_eq_iff, ← branchTarget_toNat, ← branchNext_toNat]
  omega

/-- What a branch does when its condition is `flag = value` (R73, R209). -/
theorem branchOp_outcome (off : Int) {c flag value : Bool} (hc : c = true ↔ flag = value) (s : State) :
    let next : Int := (s.pc.toNat + 2) % 65536
    let target : Int := (s.pc.toNat + 2 + off) % 65536
    let t := branchOp off c s
    t = { s with pc := t.pc, stepCycles := t.stepCycles } ∧
    (flag = value → (t.pc.toNat : Int) = target ∧ t.stepCycles = if target / 256 = next / 256 then 3 else 4) ∧
    (flag ≠ value → (t.pc.toNat : Int) = next ∧ t.stepCycles = 2) := by
  cases c with
  | true =>
    exact ⟨rfl, fun _ => ⟨branchTarget_toNat off s, by simp [branchOp, page_branchTarget_iff]⟩,
      fun hne => absurd (hc.1 rfl) hne⟩
  | false => exact ⟨rfl, fun he => absurd (hc.2 he) (by decide), fun _ => ⟨branchNext_toNat s, rfl⟩⟩

/-- Settles O56: each branch is `branchOp` on its flag or on the negation of it. -/
theorem branchesGoToNextOrTarget : Obligations.BranchesGoToNextOrTarget := by
  intro s off _ _
  have onSet (flag : Bool) := branchOp_outcome off (c := flag) (flag := flag) (value := true) Iff.rfl s
  have onClear (flag : Bool) := branchOp_outcome off (c := !flag) (flag := flag) (value := false) (by simp) s
  simp only [List.forall_mem_cons]
  exact ⟨⟨_, rfl, onClear s.p.n⟩, ⟨_, rfl, onSet s.p.n⟩, ⟨_, rfl, onClear s.p.v⟩, ⟨_, rfl, onSet s.p.v⟩, ⟨_, rfl, onClear s.p.c⟩,
    ⟨_, rfl, onSet s.p.c⟩, ⟨_, rfl, onClear s.p.z⟩, ⟨_, rfl, onSet s.p.z⟩, by simp⟩

end Sys2Proof.Machine
end

section
/-! SUPPORT. Loads and stores (41_load_store.md, R79 to R84). -/

namespace Sys2Proof.Machine

/-! ### Loads -/

theorem setNZ_eq_nz (v : Byte) (p : Flags) : setNZ v p = Forms.nz v p := by
  have hn : v.getLsbD 7 = decide (128 ≤ v.toNat) := BitVec.msb_eq_decide v
  have hz : v = 0 ↔ v.toNat = 0 := BitVec.toNat_inj.symm
  simp only [setNZ, Forms.nz, hn, hz]

/-- A reading instruction whose operation on the loaded byte writes A, X, Y and flags at most does what `Forms.Reads`
says. -/
theorem reads_readOp {f : Byte → State → State}
    (hf : ∀ v u, f v u = { u with a := (f v u).a, x := (f v u).x, y := (f v u).y, p := (f v u).p }) (o : Operand)
    (n : Nat) (s : State) : Forms.Reads s o n (readOp o n f s) := by
  have hrest : Forms.CpuOnly (loadOperand o s).st (readOp o n f s) := by
    rw [readOp, hf]
    rfl
  refine ⟨?_, rfl, ?_, fun a => ?_, hrest, ?_⟩
  · rw [readOp, hf]
    exact congrArg (· + _) (loadOperand_pc o s)
  · rw [readOp, hf]
    exact loadOperand_sp o s
  · rw [hrest]
    exact loadOperand_ramByte o s a
  · rw [Forms.ReadsOnly, hrest]
    dsimp only
    rw [← loadOperand_ciaA, ← loadOperand_ciaB, loadOperand_frame]

theorem exec_lda (s : State) (b : Byte) (w : Word) :
    ∀ f ∈ Forms.lda b w, exec f.1 s = .next (readOp f.2.1 f.2.2 loadA s) := by
  intro f hf
  fin_cases hf <;> rfl

theorem exec_ldx (s : State) (b : Byte) (w : Word) :
    ∀ f ∈ Forms.ldx b w, exec f.1 s = .next (readOp f.2.1 f.2.2 loadX s) := by
  intro f hf
  fin_cases hf <;> rfl

theorem exec_ldy (s : State) (b : Byte) (w : Word) :
    ∀ f ∈ Forms.ldy b w, exec f.1 s = .next (readOp f.2.1 f.2.2 loadY s) := by
  intro f hf
  fin_cases hf <;> rfl

/-- The flags after a load that writes N and Z from the byte in its register. -/
theorem loadOperand_setNZ (o : Operand) (s : State) :
    setNZ (loadOperand o s).val (loadOperand o s).st.p = Forms.nz (loadOperand o s).val s.p := by
  rw [setNZ_eq_nz, loadOperand_p]

/-- Settles O42: every form is `readOp` on its operand with `loadA`, `loadX` or `loadY`. -/
theorem loadsSetRegisterAndNZ : Obligations.LoadsSetRegisterAndNZ := by
  intro s b w
  refine ⟨fun f hf => ⟨_, exec_lda s b w f hf, reads_readOp (fun _ _ => rfl) _ _ s, rfl, ?_⟩,
    fun f hf => ⟨_, exec_ldx s b w f hf, reads_readOp (fun _ _ => rfl) _ _ s, rfl, ?_⟩,
    fun f hf => ⟨_, exec_ldy s b w f hf, reads_readOp (fun _ _ => rfl) _ _ s, rfl, ?_⟩⟩
  · exact ⟨loadOperand_x _ s, loadOperand_y _ s, loadOperand_setNZ _ s⟩
  · exact ⟨loadOperand_a _ s, loadOperand_y _ s, loadOperand_setNZ _ s⟩
  · exact ⟨loadOperand_a _ s, loadOperand_x _ s, loadOperand_setNZ _ s⟩

/-! ### Stores -/

theorem storesByte_memWrite (s : State) (ea : Word) (v : Byte) : Forms.StoresByte s ea v (memWrite s ea v) where
  stored h := ramByte_memWrite_same v h
  io h := by simp only [ramByte, memWrite_ram_of_io v h]
  others _ ha := ramByte_memWrite_other v ha

/-- A storing instruction is its one bus write, and then PC and the count (R82 to R84). -/
theorem storeOp_outcome (m : MemMode) (n : Nat) (v : Byte) (s : State) :
    let ea := (effectiveAddress m s).addr
    let t := storeOp m n v s
    (Forms.StoresByte s ea v t ∧ Forms.CpuOnly (memWrite s ea v) t) ∧
    t.pc = s.pc + BitVec.ofNat 16 (memLength m) ∧ t.stepCycles = n ∧
    t.a = s.a ∧ t.x = s.x ∧ t.y = s.y ∧ t.sp = s.sp ∧ t.p = s.p := by
  intro ea t
  have ht : t = finish (memWrite s ea v) (memLength m) n := storeOp_eq m n v s
  rw [ht]
  have hbytes := storesByte_memWrite s ea v
  exact ⟨⟨⟨hbytes.stored, hbytes.io, hbytes.others⟩, rfl⟩, congrArg (· + _) (memWrite_pc s ea v), rfl, memWrite_a s ea v,
    memWrite_x s ea v, memWrite_y s ea v, memWrite_sp s ea v, memWrite_p s ea v⟩

theorem exec_sta (s : State) (b : Byte) (w : Word) :
    ∀ f ∈ Forms.sta b w, exec f.1 s = .next (storeOp f.2.1 f.2.2 s.a s) := by
  intro f hf
  fin_cases hf <;> rfl

theorem exec_stx (s : State) (b : Byte) (w : Word) :
    ∀ f ∈ Forms.stx b w, exec f.1 s = .next (storeOp f.2.1 f.2.2 s.x s) := by
  intro f hf
  fin_cases hf <;> rfl

theorem exec_sty (s : State) (b : Byte) (w : Word) :
    ∀ f ∈ Forms.sty b w, exec f.1 s = .next (storeOp f.2.1 f.2.2 s.y s) := by
  intro f hf
  fin_cases hf <;> rfl

/-- Settles O43: every form is `storeOp` on its mode with A, X or Y. -/
theorem storesWriteTheRegister : Obligations.StoresWriteTheRegister :=
  fun s b w => ⟨fun f hf => ⟨_, exec_sta s b w f hf, storeOp_outcome f.2.1 f.2.2 s.a s⟩,
    fun f hf => ⟨_, exec_stx s b w f hf, storeOp_outcome f.2.1 f.2.2 s.x s⟩,
    fun f hf => ⟨_, exec_sty s b w f hf, storeOp_outcome f.2.1 f.2.2 s.y s⟩⟩

end Sys2Proof.Machine
end

section
/-! SUPPORT. Register transfers and the stack (42_transfer_stack.md, R85 to R94). -/

namespace Sys2Proof.Machine

/-! ### Implied instructions -/

/-- An implied instruction whose operation changes registers and flags at most, from `s` to `u`, does what `Forms.Implied`
says (R61). -/
theorem implied_finish {s u : State} (hu : u = { s with a := u.a, x := u.x, y := u.y, sp := u.sp, p := u.p }) (n : Nat) :
    Forms.Implied s n (finish u 1 n) := by
  rw [hu]
  exact ⟨rfl, rfl, fun _ => rfl, rfl⟩

/-! ### Transfers -/

/-- Settles O44: TXS is `setSp`, every other transfer is `loadA`, `loadX` or `loadY` on its source. -/
theorem transfersCopyRegisters : Obligations.TransfersCopyRegisters := fun s =>
  ⟨⟨finish (loadX s.a s) 1 2, rfl, implied_finish rfl 2, rfl, rfl, rfl, rfl, setNZ_eq_nz s.a s.p⟩,
    ⟨finish (loadY s.a s) 1 2, rfl, implied_finish rfl 2, rfl, rfl, rfl, rfl, setNZ_eq_nz s.a s.p⟩,
    ⟨finish (loadA s.x s) 1 2, rfl, implied_finish rfl 2, rfl, rfl, rfl, rfl, setNZ_eq_nz s.x s.p⟩,
    ⟨finish (loadA s.y s) 1 2, rfl, implied_finish rfl 2, rfl, rfl, rfl, rfl, setNZ_eq_nz s.y s.p⟩,
    ⟨finish (loadX s.sp s) 1 2, rfl, implied_finish rfl 2, rfl, rfl, rfl, rfl, setNZ_eq_nz s.sp s.p⟩,
    ⟨finish (setSp s s.x) 1 2, rfl, implied_finish rfl 2, rfl, rfl, rfl, rfl, rfl⟩⟩

/-! ### Pushes -/

theorem stackAddr_eq_ofNat (sp : Byte) : stackAddr sp = BitVec.ofNat 16 (256 + sp.toNat) :=
  BitVec.eq_of_toNat_eq (by rw [stackAddr_toNat, BitVec.toNat_ofNat]; omega)

/-- The status byte in numbers (R23). -/
theorem pImage_toNat (b : Bool) (f : Flags) :
    (pImage b f).toNat = (if f.n then 128 else 0) + (if f.v then 64 else 0) + 32 + (if b then 16 else 0) +
      (if f.d then 8 else 0) + (if f.i then 4 else 0) + (if f.z then 2 else 0) + (if f.c then 1 else 0) := by
  have key : ∀ b n v d i z c : Bool, (pImage b ⟨n, v, d, i, z, c⟩).toNat =
      (if n then 128 else 0) + (if v then 64 else 0) + 32 + (if b then 16 else 0) + (if d then 8 else 0) +
        (if i then 4 else 0) + (if z then 2 else 0) + (if c then 1 else 0) := by decide
  exact key b f.n f.v f.d f.i f.z f.c

/-- The RAM bytes after a push, at the stack address in numbers (R19). -/
theorem storesByte_push (s : State) (v : Byte) :
    Forms.StoresByte s (BitVec.ofNat 16 (256 + s.sp.toNat)) v (push s v) := by
  have h := storesByte_memWrite s (stackAddr s.sp) v
  rw [← stackAddr_eq_ofNat]
  exact ⟨h.stored, h.io, h.others⟩

/-- A pushing instruction is its one push, and then PC and the count (R91, R92). -/
theorem finish_push_outcome (n : Nat) {v b : Byte} (hv : v = b) (s : State) :
    let ea := BitVec.ofNat 16 (256 + s.sp.toNat)
    let t := finish (push s v) 1 n
    Forms.StoresByte s ea b t ∧ ramByte t ea = b ∧ Forms.RamAndCpuOnly s t ∧ t.sp = s.sp - 1 ∧ t.pc = s.pc + 1 ∧
    t.stepCycles = n ∧ t.a = s.a ∧ t.x = s.x ∧ t.y = s.y ∧ t.p = s.p := by
  intro ea t
  subst hv
  have hbytes := storesByte_push s v
  have hram : readSource s ea ≠ .io := by simp [ea, ← stackAddr_eq_ofNat]
  have ht : t = finish { s with sp := s.sp - 1, ram := (push s v).ram } 1 n := by simp only [t, push_eq]
  refine ⟨⟨hbytes.stored, hbytes.io, hbytes.others⟩, hbytes.stored hram, ?_⟩
  rw [ht]
  exact ⟨rfl, rfl, rfl, rfl, rfl, rfl, rfl, rfl⟩

/-- Settles O45: PHA pushes A, PHP the status byte with B = 1. -/
theorem pushInstructions : Obligations.PushInstructions := fun s =>
  ⟨⟨_, rfl, finish_push_outcome 3 rfl s⟩,
    ⟨_, _, rfl, pImage_toNat true s.p, finish_push_outcome 3 (by rw [BitVec.ofNat_toNat, BitVec.setWidth_eq]) s⟩⟩

/-! ### Pulls -/

/-- The flags of a pulled status byte in numbers (R94, R120). -/
theorem flagsOf_eq_numbers (v : Byte) : flagsOf v =
    { n := decide (128 ≤ v.toNat), v := decide (v.toNat / 64 % 2 = 1), d := decide (v.toNat / 8 % 2 = 1)
      i := decide (v.toNat / 4 % 2 = 1), z := decide (v.toNat / 2 % 2 = 1), c := decide (v.toNat % 2 = 1) } := by
  have hn : v.getLsbD 7 = decide (128 ≤ v.toNat) := BitVec.msb_eq_decide v
  have hbit (k : Nat) : v.getLsbD k = decide (v.toNat / 2 ^ k % 2 = 1) := Nat.testBit_eq_decide_div_mod_eq
  rw [flagsOf, hn, hbit 6, hbit 3, hbit 2, hbit 1, hbit 0, Nat.pow_zero, Nat.div_one]
  rfl

/-- `PLA` in full (R93). -/
theorem exec_pla (s : State) :
    let v := ramByte s (stackAddr (s.sp + 1))
    exec .pla s = .next (finish { s with sp := s.sp + 1, a := v, p := setNZ v s.p } 1 4) := by
  change Host.Outcome.next (finish (pullA s) 1 4) = _
  simp only [pullA, pull_eq, setA, setP]

/-- `PLP` in full (R94). -/
theorem exec_plp (s : State) :
    exec .plp s = .next (finish { s with sp := s.sp + 1, p := flagsOf (ramByte s (stackAddr (s.sp + 1))) } 1 4) := by
  change Host.Outcome.next (finish (pullFlags s) 1 4) = _
  simp only [pullFlags, pull_eq, setP]

/-- Settles O46, from PLA and PLP in full. -/
theorem pullInstructions : Obligations.PullInstructions := by
  unfold Obligations.PullInstructions
  intro s
  rw [← stackAddr_eq_ofNat]
  exact ⟨⟨_, exec_pla s, implied_finish rfl 4, rfl, rfl, rfl, rfl, setNZ_eq_nz _ s.p⟩,
    ⟨_, exec_plp s, implied_finish rfl 4, rfl, rfl, rfl, rfl, flagsOf_eq_numbers _⟩⟩

end Sys2Proof.Machine
end

section
/-! SUPPORT. Arithmetic, compare, increment and decrement (43_arithmetic.md, R95 to R108). -/

namespace Sys2Proof.Machine

/-! ### Bytes in numbers -/

theorem lowNibble_toNat (v : Byte) : (v &&& 0x0F).toNat = v.toNat % 16 := Nat.and_two_pow_sub_one_eq_mod v.toNat 4

theorem highNibble_toNat (v : Byte) : (v &&& 0xF0).toNat = v.toNat / 16 * 16 := by
  have hshift : v >>> 4 <<< 4 = v &&& 0xF0 := BitVec.shiftLeft_ushiftRight
  have := v.isLt
  rw [← hshift, BitVec.toNat_shiftLeft, BitVec.toNat_ushiftRight, Nat.shiftLeft_eq, Nat.shiftRight_eq_div_pow]
  omega

/-- The high nibble as a signed byte is the signed byte less its low nibble. -/
theorem sext8_highNibble (v : Byte) :
    sext8 (v &&& 0xF0) = (if 128 ≤ v.toNat then (v.toNat : Int) - 256 else v.toNat) - v.toNat % 16 := by
  rw [sext8, BitVec.msb_eq_decide, highNibble_toNat]
  simp only [decide_eq_true_eq]
  split <;> split <;> omega

/-- Bit 7 of a byte, as the overflow formulas test it (R96, R98). -/
theorem decide_and_80_ne_zero (v : Byte) : decide (v &&& 0x80 ≠ 0) = v.msb := by
  have h80 : (0x80 : Byte) = BitVec.twoPow 8 7 := rfl
  have hmsb : v.msb = v.getLsbD 7 := rfl
  rw [h80, BitVec.and_twoPow, hmsb]
  cases v.getLsbD 7 <;> rfl

theorem toNat_ofInt_byte (i : Int) : ((BitVec.ofInt 8 i).toNat : Int) = i % 256 := by
  rw [BitVec.toNat_ofInt]
  exact Int.toNat_of_nonneg (Int.emod_nonneg i (by decide))

theorem carryNat_le_one (c : Bool) : carryNat c ≤ 1 := by cases c <;> decide

/-- A signed byte in numbers. -/
theorem toInt_eq_ite (v : Byte) : v.toInt = if 128 ≤ v.toNat then (v.toNat : Int) - 256 else v.toNat := by
  rw [BitVec.toInt_eq_toNat_cond]
  split <;> split <;> omega

/-! ### The adder -/

/-- The sign test of the binary adder is signed overflow (R96). -/
theorem adcBinary_overflow (a m : Byte) (c : Bool) :
    (adcBinary a m c).overflow =
      decide (a.toInt + m.toInt + carryNat c < -128 ∨ 127 < a.toInt + m.toInt + carryNat c) := by
  have ha := a.isLt
  have hm := m.isLt
  have hc := carryNat_le_one c
  have hr : (BitVec.ofNat 8 (a.toNat + m.toNat + carryNat c)).msb =
      decide (128 ≤ (a.toNat + m.toNat + carryNat c) % 256) := by rw [BitVec.msb_eq_decide, BitVec.toNat_ofNat]
  have htest : (adcBinary a m c).overflow =
      (~~~(a ^^^ m) &&& (a ^^^ BitVec.ofNat 8 (a.toNat + m.toNat + carryNat c))).msb := decide_and_80_ne_zero _
  rw [Bool.eq_iff_iff, htest, BitVec.msb_and, BitVec.msb_not, BitVec.msb_xor, BitVec.msb_xor, hr,
    BitVec.msb_eq_decide a, BitVec.msb_eq_decide m, toInt_eq_ite, toInt_eq_ite]
  -- by the signs of the operands
  by_cases hna : 128 ≤ a.toNat <;> by_cases hnm : 128 ≤ m.toNat <;> simp [hna, hnm] <;> omega

/-- The decimal adder in numbers (R96). -/
theorem adcDecimal_eq (a m : Byte) (c : Bool) : adcDecimal a m c =
    let digit : Nat := a.toNat % 16 + m.toNat % 16 + carryNat c
    let lo : Nat := if 10 ≤ digit then (digit + 6) % 16 + 16 else digit
    let high (v : Byte) : Int := (if 128 ≤ v.toNat then (v.toNat : Int) - 256 else v.toNat) - v.toNat % 16
    let sv : Int := high a + high m + lo
    let total : Nat := a.toNat / 16 * 16 + m.toNat / 16 * 16 + lo
    let adjusted : Nat := if 0xA0 ≤ total then total + 0x60 else total
    { val := BitVec.ofNat 8 adjusted, carry := decide (256 ≤ adjusted), overflow := decide (sv < -128 ∨ 127 < sv) } := by
  simp only [adcDecimal, decimalLowAdd, lowNibble_toNat, highNibble_toNat, sext8_highNibble, Bool.decide_or]

/-! ### Binary coded decimal -/

/-- The number that two decimal digits stand for. -/
def bcdValue (v : Byte) : Nat := v.toNat / 16 * 10 + v.toNat % 16

/-- A byte of two decimal digits. -/
def IsBcd (v : Byte) : Prop := v.toNat / 16 ≤ 9 ∧ v.toNat % 16 ≤ 9

/-- A byte of decimal digits `h` and `l`, up to a multiple `j` of the 256 that the accumulator drops, holds the number that
the digits stand for, up to `j` hundreds. -/
theorem bcd_of_digits {v : Byte} {n j h l : Int} (hh : 0 ≤ h ∧ h ≤ 9) (hl : 0 ≤ l ∧ l ≤ 9)
    (hv : (v.toNat : Int) = (256 * j + (16 * h + l)) % 256) (hn : n = 100 * j + (10 * h + l)) :
    IsBcd v ∧ (bcdValue v : Int) = n % 100 := by
  have hbyte : (v.toNat : Int) = 16 * h + l := by omega
  have hnumber : n % 100 = 10 * h + l := by omega
  simp only [IsBcd, bcdValue, hnumber]
  omega

/-- The low digit of a decimal addition is a digit `l` and a carry `k` into the high nibble. -/
theorem decimalLowAdd_digits {a m : Byte} (c : Bool) (ha : IsBcd a) (hm : IsBcd m) :
    ∃ k l : Nat, l ≤ 9 ∧ a.toNat % 16 + m.toNat % 16 + carryNat c = 10 * k + l ∧ decimalLowAdd a m c = 16 * k + l := by
  have hc := carryNat_le_one c
  obtain ⟨-, ha0⟩ := ha
  obtain ⟨-, hm0⟩ := hm
  simp only [decimalLowAdd, lowNibble_toNat]
  split
  · exact ⟨1, a.toNat % 16 + m.toNat % 16 + carryNat c - 10, by omega, by omega, by omega⟩
  · exact ⟨0, a.toNat % 16 + m.toNat % 16 + carryNat c, by omega, by omega, by omega⟩

/-- A decimal addition of valid operands is a hundred `j` that goes to the carry, and two digits. -/
theorem adcDecimal_digits {a m : Byte} (c : Bool) (ha : IsBcd a) (hm : IsBcd m) :
    let r := adcDecimal a m c
    ∃ j h l : Int, (0 ≤ h ∧ h ≤ 9) ∧ (0 ≤ l ∧ l ≤ 9) ∧ (r.val.toNat : Int) = (256 * j + (16 * h + l)) % 256 ∧
      (bcdValue a + bcdValue m + carryNat c : Nat) = 100 * j + (10 * h + l) ∧ r.carry = decide (1 ≤ j) := by
  obtain ⟨k, l, hl, hdigit, hlow⟩ := decimalLowAdd_digits c ha hm
  have hc := carryNat_le_one c
  obtain ⟨ha1, ha0⟩ := ha
  obtain ⟨hm1, hm0⟩ := hm
  simp only [adcDecimal, bcdValue, highNibble_toNat, hlow, BitVec.toNat_ofNat]
  split
  · exact ⟨1, a.toNat / 16 + m.toNat / 16 + k - 10, l, by omega, by omega, by omega, by omega,
      decide_eq_decide.2 (by omega)⟩
  · exact ⟨0, a.toNat / 16 + m.toNat / 16 + k, l, by omega, by omega, by omega, by omega, decide_eq_decide.2 (by omega)⟩

/-- On valid operands the decimal adder adds modulo 100, and its carry is the hundred (R97). -/
theorem adcDecimal_bcd {a m : Byte} (c : Bool) (ha : IsBcd a) (hm : IsBcd m) :
    let r := adcDecimal a m c
    IsBcd r.val ∧ bcdValue r.val = (bcdValue a + bcdValue m + carryNat c) % 100 ∧
      r.carry = decide (100 ≤ bcdValue a + bcdValue m + carryNat c) := by
  obtain ⟨j, h, l, hh, hl, hval, hsum, hcarry⟩ := adcDecimal_digits c ha hm
  obtain ⟨hvalid, hvalue⟩ := bcd_of_digits hh hl hval hsum
  exact ⟨hvalid, by exact_mod_cast hvalue, hcarry.trans (decide_eq_decide.2 (by omega))⟩

/-! ### The subtractor -/

/-- The sign test of the binary subtractor is signed overflow (R98). -/
theorem sbcBinary_overflow (a m : Byte) (c : Bool) :
    (sbcBinary a m c).overflow = decide
      (a.toInt - m.toInt - (1 - carryNat c) < -128 ∨ 127 < a.toInt - m.toInt - (1 - carryNat c)) := by
  have ha := a.isLt
  have hm := m.isLt
  have hc := carryNat_le_one c
  have hr : (BitVec.ofInt 8 (binaryDiff a m c)).msb = decide (128 ≤ binaryDiff a m c % 256) := by
    rw [BitVec.msb_eq_decide, BitVec.toNat_ofInt]
    exact decide_eq_decide.2 (by omega)
  have htest : (sbcBinary a m c).overflow = ((a ^^^ m) &&& (a ^^^ BitVec.ofInt 8 (binaryDiff a m c))).msb :=
    decide_and_80_ne_zero _
  rw [Bool.eq_iff_iff, htest, BitVec.msb_and, BitVec.msb_xor, BitVec.msb_xor, hr, BitVec.msb_eq_decide a,
    BitVec.msb_eq_decide m, toInt_eq_ite, toInt_eq_ite, binaryDiff]
  -- by the signs of the operands
  by_cases hna : 128 ≤ a.toNat <;> by_cases hnm : 128 ≤ m.toNat <;> simp [hna, hnm] <;> omega

/-- The decimal subtractor in numbers (R98). -/
theorem sbcDecimalVal_toNat (a m : Byte) (c : Bool) : ((sbcDecimalVal a m c).toNat : Int) =
    let digit : Int := (a.toNat % 16 : Nat) - (m.toNat % 16 : Nat) - (1 - carryNat c)
    let lo : Int := if digit < 0 then (digit - 6) % 16 - 16 else digit
    let total : Int := (a.toNat / 16 * 16 : Nat) - (m.toNat / 16 * 16 : Nat) + lo
    let adjusted : Int := if total < 0 then total - 0x60 else total
    adjusted % 256 := by
  have hdigit : ((a.toNat % 16 : Nat) : Int) - (m.toNat % 16 : Nat) + carryNat c - 1 =
    (a.toNat % 16 : Nat) - (m.toNat % 16 : Nat) - (1 - carryNat c) := by omega
  simp only [sbcDecimalVal, decimalLowSub, lowNibble_toNat, highNibble_toNat, hdigit, toNat_ofInt_byte]

/-- The low digit of a decimal subtraction is a digit `l` and a borrow `k` from the high nibble. -/
theorem decimalLowSub_digits {a m : Byte} (c : Bool) (ha : IsBcd a) (hm : IsBcd m) :
    ∃ k l : Int, (0 ≤ l ∧ l ≤ 9) ∧ (a.toNat % 16 : Nat) - (m.toNat % 16 : Nat) - (1 - carryNat c) = l - 10 * k ∧
      decimalLowSub a m c = l - 16 * k := by
  have hc := carryNat_le_one c
  obtain ⟨-, ha0⟩ := ha
  obtain ⟨-, hm0⟩ := hm
  simp only [decimalLowSub, lowNibble_toNat]
  split
  · exact ⟨1, (a.toNat % 16 : Nat) - (m.toNat % 16 : Nat) + carryNat c + 9, by omega, by omega, by omega⟩
  · exact ⟨0, (a.toNat % 16 : Nat) - (m.toNat % 16 : Nat) + carryNat c - 1, by omega, by omega, by omega⟩

/-- A decimal subtraction of valid operands is two digits, less a hundred `j` when it borrows. -/
theorem sbcDecimalVal_digits {a m : Byte} (c : Bool) (ha : IsBcd a) (hm : IsBcd m) :
    ∃ j h l : Int, (0 ≤ h ∧ h ≤ 9) ∧ (0 ≤ l ∧ l ≤ 9) ∧
      ((sbcDecimalVal a m c).toNat : Int) = (256 * j + (16 * h + l)) % 256 ∧
      (bcdValue a : Int) - bcdValue m - (1 - carryNat c) = 100 * j + (10 * h + l) := by
  obtain ⟨k, l, hl, hdigit, hlow⟩ := decimalLowSub_digits c ha hm
  have hc := carryNat_le_one c
  obtain ⟨ha1, ha0⟩ := ha
  obtain ⟨hm1, hm0⟩ := hm
  simp only [sbcDecimalVal, bcdValue, highNibble_toNat, hlow, toNat_ofInt_byte]
  split
  · exact ⟨-1, a.toNat / 16 - m.toNat / 16 - k + 10, l, by omega, by omega, by omega, by omega⟩
  · exact ⟨0, a.toNat / 16 - m.toNat / 16 - k, l, by omega, by omega, by omega, by omega⟩

/-- On valid operands the binary difference borrows exactly when the decimal one does. -/
theorem binaryDiff_nonneg_iff_bcd {a m : Byte} (c : Bool) (ha : IsBcd a) (hm : IsBcd m) :
    0 ≤ binaryDiff a m c ↔ 0 ≤ (bcdValue a : Int) - bcdValue m - (1 - carryNat c) := by
  have hc := carryNat_le_one c
  obtain ⟨-, ha0⟩ := ha
  obtain ⟨-, hm0⟩ := hm
  simp only [binaryDiff, bcdValue]
  omega

/-! ### ADC -/

/-- The flags after ADC or SBC in numbers (R96, R98). -/
theorem flagsOfSum_eq (r : Sum) (p : Flags) : flagsOfSum r p =
    { n := decide (128 ≤ r.val.toNat), v := r.overflow, d := p.d, i := p.i
      z := decide (r.val.toNat = 0), c := r.carry } := by
  rw [flagsOfSum, setNZ_eq_nz]
  rfl

theorem exec_adc (s : State) (b : Byte) (w : Word) :
    ∀ f ∈ Forms.adc b w, exec f.1 s = .next (readOp f.2.1 f.2.2 addToA s) := by
  intro f hf
  fin_cases hf <;> rfl

theorem readOp_addToA_a (o : Operand) (n : Nat) (s : State) :
    (readOp o n addToA s).a = (adcSum s.p s.a (loadOperand o s).val).val := by simp [readOp, addToA]

theorem readOp_addToA_p (o : Operand) (n : Nat) (s : State) :
    (readOp o n addToA s).p = flagsOfSum (adcSum s.p s.a (loadOperand o s).val) s.p := by simp [readOp, addToA]

/-- Settles O47: every form is `readOp` with `addToA`, which is the binary adder when D = 0. -/
theorem adcBinaryResult : Obligations.AdcBinaryResult := by
  intro s b w hd f hf
  have hsum (m : Byte) : adcSum s.p s.a m = adcBinary s.a m s.p.c := by simp [adcSum, hd]
  refine ⟨_, exec_adc s b w f hf, reads_readOp (fun _ _ => rfl) _ _ s, loadOperand_x _ s, loadOperand_y _ s, ?_, ?_⟩
  · rw [readOp_addToA_a, hsum]
    exact BitVec.toNat_ofNat ..
  · rw [readOp_addToA_p, hsum, flagsOfSum_eq, adcBinary_overflow, hd]
    simp only [adcBinary, BitVec.toNat_ofNat]
    rfl

/-- Settles O48: with D = 1 `addToA` is the decimal adder, here in numbers and on valid operands. -/
theorem adcDecimalResult : Obligations.AdcDecimalResult := by
  intro s b w hd f hf
  have hsum (m : Byte) : adcSum s.p s.a m = adcDecimal s.a m s.p.c := by simp [adcSum, hd]
  refine ⟨_, exec_adc s b w f hf, reads_readOp (fun _ _ => rfl) _ _ s, loadOperand_x _ s, loadOperand_y _ s, ?_⟩
  rw [readOp_addToA_a, readOp_addToA_p, hsum, flagsOfSum_eq, hd]
  have hbcd := adcDecimal_bcd (a := s.a) (m := (loadOperand f.2.1 s).val) s.p.c
  refine ⟨?_, ?_, hbcd⟩
  · rw [adcDecimal_eq]
    exact BitVec.toNat_ofNat ..
  · rw [adcDecimal_eq]
    rfl

/-! ### SBC -/

theorem exec_sbc (s : State) (b : Byte) (w : Word) :
    ∀ f ∈ Forms.sbc b w, exec f.1 s = .next (readOp f.2.1 f.2.2 subtractFromA s) := by
  intro f hf
  fin_cases hf <;> rfl

theorem readOp_subtractFromA_a (o : Operand) (n : Nat) (s : State) :
    (readOp o n subtractFromA s).a = (sbcDiff s.p s.a (loadOperand o s).val).val := by simp [readOp, subtractFromA]

theorem readOp_subtractFromA_p (o : Operand) (n : Nat) (s : State) :
    (readOp o n subtractFromA s).p = flagsOfSum (sbcDiff s.p s.a (loadOperand o s).val) s.p := by
  simp [readOp, subtractFromA]

/-- D chooses the value of SBC (R98). -/
theorem sbcDiff_val (p : Flags) (a m : Byte) :
    (sbcDiff p a m).val = if p.d then sbcDecimalVal a m p.c else (sbcBinary a m p.c).val := by
  unfold sbcDiff
  split <;> rfl

/-- Carry and overflow of SBC do not depend on D (R99). -/
theorem sbcDiff_carry (p : Flags) (a m : Byte) : (sbcDiff p a m).carry = decide (0 ≤ binaryDiff a m p.c) := by
  unfold sbcDiff
  split <;> rfl

theorem sbcDiff_overflow (p : Flags) (a m : Byte) : (sbcDiff p a m).overflow = (sbcBinary a m p.c).overflow := by
  unfold sbcDiff
  split <;> rfl

/-- The borrow that a clear carry stands for. -/
theorem one_sub_carryNat (c : Bool) : (1 - carryNat c : Int) = if c then 0 else 1 := by cases c <;> rfl

/-- Settles O49: D chooses the value; carry and overflow are those of the binary difference. -/
theorem sbcResult : Obligations.SbcResult := by
  intro s b w f hf
  refine ⟨_, exec_sbc s b w f hf, reads_readOp (fun _ _ => rfl) _ _ s, loadOperand_x _ s, loadOperand_y _ s, ?_⟩
  rw [readOp_subtractFromA_a, readOp_subtractFromA_p, flagsOfSum_eq, sbcDiff_carry, sbcDiff_overflow,
    sbcBinary_overflow, sbcDiff_val, binaryDiff, ← one_sub_carryNat]
  generalize (loadOperand f.2.1 s).val = m
  refine ⟨?_, rfl, fun hd hva hvm => ?_⟩
  · cases s.p.d with
    | false => exact toNat_ofInt_byte _
    | true => exact sbcDecimalVal_toNat ..
  · obtain ⟨j, h, l, hh, hl, hval, hdiff⟩ := sbcDecimalVal_digits s.p.c hva hvm
    obtain ⟨hvalid, hvalue⟩ := bcd_of_digits hh hl hval hdiff
    rw [if_pos hd]
    exact ⟨hvalid, hvalue, decide_eq_decide.2 (binaryDiff_nonneg_iff_bcd s.p.c hva hvm)⟩

/-! ### Compares -/

theorem exec_cmp (s : State) (b : Byte) (w : Word) :
    ∀ f ∈ Forms.cmp b w, exec f.1 s = .next (readOp f.2.1 f.2.2 compareA s) := by
  intro f hf
  fin_cases hf <;> rfl

theorem exec_cpx (s : State) (b : Byte) (w : Word) :
    ∀ f ∈ Forms.cpx b w, exec f.1 s = .next (readOp f.2.1 f.2.2 compareX s) := by
  intro f hf
  fin_cases hf <;> rfl

theorem exec_cpy (s : State) (b : Byte) (w : Word) :
    ∀ f ∈ Forms.cpy b w, exec f.1 s = .next (readOp f.2.1 f.2.2 compareY s) := by
  intro f hf
  fin_cases hf <;> rfl

/-- The flags after a compare in numbers (R100). -/
theorem flagsOfCompare_eq (r m : Byte) (p : Flags) : flagsOfCompare r m p =
    { p with n := decide (128 ≤ (r.toNat + 256 - m.toNat) % 256), z := decide (r = m)
             c := decide (m.toNat ≤ r.toNat) } := by
  have hm := m.isLt
  have hdiff : (r - m).toNat = (r.toNat + 256 - m.toNat) % 256 := by rw [BitVec.toNat_sub]; omega
  have hzero : (r.toNat + 256 - m.toNat) % 256 = 0 ↔ r = m := by rw [← BitVec.toNat_inj]; omega
  simp only [flagsOfCompare, setNZ_eq_nz, Forms.nz, hdiff, hzero]

/-- Settles O50: every form is `readOp` with an operation that writes `flagsOfCompare` and nothing else. -/
theorem compareSetsCarryOnNoBorrow : Obligations.CompareSetsCarryOnNoBorrow := by
  intro s b w
  refine ⟨fun f hf => ⟨_, exec_cmp s b w f hf, reads_readOp (fun _ _ => rfl) _ _ s, loadOperand_a _ s, loadOperand_x _ s,
      loadOperand_y _ s, ?_⟩,
    fun f hf => ⟨_, exec_cpx s b w f hf, reads_readOp (fun _ _ => rfl) _ _ s, loadOperand_a _ s, loadOperand_x _ s,
      loadOperand_y _ s, ?_⟩,
    fun f hf => ⟨_, exec_cpy s b w f hf, reads_readOp (fun _ _ => rfl) _ _ s, loadOperand_a _ s, loadOperand_x _ s,
      loadOperand_y _ s, ?_⟩⟩
  all_goals
    dsimp only
    rw [← flagsOfCompare_eq]
  · simp [readOp, compareA]
  · simp [readOp, compareX]
  · simp [readOp, compareY]

/-! ### Read-modify-write -/

/-- A read-modify-write instruction is one bus read, one bus write of the new byte to the same address, the new flags, and
then PC and the count (R53, R74, R208). -/
theorem modifyOp_outcome (m : MemMode) (n : Nat) {f : Byte → Flags → Byte × Flags} {s : State} {new : Byte} {p : Flags}
    (hf : f (memRead s (effectiveAddress m s).addr).1 s.p = (new, p)) :
    let ea := (effectiveAddress m s).addr
    let t := modifyOp m n f s
    (Forms.StoresByte s ea new t ∧ Forms.CpuOnly (memWrite (memRead s ea).2 ea new) t ∧ t.p = p) ∧
    t.pc = s.pc + BitVec.ofNat 16 (memLength m) ∧ t.stepCycles = n ∧
    t.a = s.a ∧ t.x = s.x ∧ t.y = s.y ∧ t.sp = s.sp := by
  intro ea t
  let u := (memRead s ea).2
  have ht : t = finish (setP (memWrite u ea new) p) (memLength m) n := by simp only [t, modifyOp_eq, hf]; rfl
  have hbytes := storesByte_memWrite u ea new
  have hsource : readSource u ea = readSource s ea := readSource_memRead s ea ea
  have hram (a : Word) : ramByte u a = ramByte s a := memRead_ramByte s ea a
  rw [ht]
  refine ⟨⟨⟨fun h => hbytes.stored (hsource ▸ h), fun h => (hbytes.io (hsource.trans h)).trans (hram ea),
    fun a ha => (hbytes.others a ha).trans (hram a)⟩, rfl, rfl⟩, ?_⟩
  simp [u]

/-! ### Increment and decrement -/

theorem byte_add_one (v : Byte) : v + 1 = BitVec.ofNat 8 (v.toNat + 1) := BitVec.eq_of_toNat_eq (by simp)

theorem byte_sub_one (v : Byte) : v - 1 = BitVec.ofNat 8 (v.toNat + 255) := BitVec.eq_of_toNat_eq (by simp; omega)

/-- INC of a byte in numbers (R103). -/
theorem increment_eq (v : Byte) (p : Flags) :
    increment v p = (BitVec.ofNat 8 (v.toNat + 1), Forms.nz (BitVec.ofNat 8 (v.toNat + 1)) p) := by
  rw [increment, setNZ_eq_nz, byte_add_one]

/-- DEC of a byte in numbers (R104). -/
theorem decrement_eq (v : Byte) (p : Flags) :
    decrement v p = (BitVec.ofNat 8 (v.toNat + 255), Forms.nz (BitVec.ofNat 8 (v.toNat + 255)) p) := by
  rw [decrement, setNZ_eq_nz, byte_sub_one]

theorem exec_inc (s : State) (b : Byte) (w : Word) :
    ∀ f ∈ Forms.inc b w, exec f.1 s = .next (modifyOp f.2.1 f.2.2 increment s) := by
  intro f hf
  fin_cases hf <;> rfl

theorem exec_dec (s : State) (b : Byte) (w : Word) :
    ∀ f ∈ Forms.dec b w, exec f.1 s = .next (modifyOp f.2.1 f.2.2 decrement s) := by
  intro f hf
  fin_cases hf <;> rfl

/-- Settles O51: the memory forms are `modifyOp`, the register forms load the stepped register. -/
theorem incrementsAndDecrements : Obligations.IncrementsAndDecrements := by
  intro s b w
  have hup (v : Byte) : (v + 1).toNat = (v.toNat + 1) % 256 := BitVec.toNat_add v 1
  have hdown (v : Byte) : (v - 1).toNat = (v.toNat + 255) % 256 := by rw [byte_sub_one]; exact BitVec.toNat_ofNat ..
  exact ⟨fun f hf => ⟨_, exec_inc s b w f hf, modifyOp_outcome f.2.1 f.2.2 (increment_eq _ _)⟩,
    fun f hf => ⟨_, exec_dec s b w f hf, modifyOp_outcome f.2.1 f.2.2 (decrement_eq _ _)⟩,
    ⟨finish (loadX (s.x + 1) s) 1 2, rfl, implied_finish rfl 2, hup s.x, rfl, rfl, rfl, setNZ_eq_nz _ s.p⟩,
    ⟨finish (loadY (s.y + 1) s) 1 2, rfl, implied_finish rfl 2, hup s.y, rfl, rfl, rfl, setNZ_eq_nz _ s.p⟩,
    ⟨finish (loadX (s.x - 1) s) 1 2, rfl, implied_finish rfl 2, hdown s.x, rfl, rfl, rfl, setNZ_eq_nz _ s.p⟩,
    ⟨finish (loadY (s.y - 1) s) 1 2, rfl, implied_finish rfl 2, hdown s.y, rfl, rfl, rfl, setNZ_eq_nz _ s.p⟩⟩

end Sys2Proof.Machine
end

section
/-! SUPPORT. Logic, bit test, shifts and rotates (44_logic_shift.md, R109 to R116). -/

namespace Sys2Proof.Machine

/-! ### Logic -/

/-- A reading instruction that loads A with the old A and the operand combined by `f`, which is `op` on each bit, does what
the logic rules say (R109 to R111). -/
theorem readOp_bitwise {f : Byte → Byte → Byte} {op : Bool → Bool → Bool}
    (hf : ∀ (a m : Byte) (k : Nat), (f a m).getLsbD k = op (a.getLsbD k) (m.getLsbD k)) (o : Operand) (n : Nat)
    (s : State) :
    let t := readOp o n (fun m u => loadA (f u.a m) u) s
    Forms.Reads s o n t ∧ t.x = s.x ∧ t.y = s.y ∧
    (∀ k : Nat, k < 8 → t.a.getLsbD k = op (s.a.getLsbD k) ((loadOperand o s).val.getLsbD k)) ∧ t.p = Forms.nz t.a s.p := by
  intro t
  have ha : t.a = f s.a (loadOperand o s).val := congrArg (f · _) (loadOperand_a o s)
  have hp : t.p = setNZ t.a (loadOperand o s).st.p := rfl
  refine ⟨reads_readOp (fun _ _ => rfl) o n s, loadOperand_x o s, loadOperand_y o s, fun k _ => ?_, ?_⟩
  · rw [ha, hf]
  · rw [hp, setNZ_eq_nz, loadOperand_p]

theorem exec_and (s : State) (b : Byte) (w : Word) :
    ∀ f ∈ Forms.and b w, exec f.1 s = .next (readOp f.2.1 f.2.2 andA s) := by
  intro f hf
  fin_cases hf <;> rfl

theorem exec_ora (s : State) (b : Byte) (w : Word) :
    ∀ f ∈ Forms.ora b w, exec f.1 s = .next (readOp f.2.1 f.2.2 orA s) := by
  intro f hf
  fin_cases hf <;> rfl

theorem exec_eor (s : State) (b : Byte) (w : Word) :
    ∀ f ∈ Forms.eor b w, exec f.1 s = .next (readOp f.2.1 f.2.2 eorA s) := by
  intro f hf
  fin_cases hf <;> rfl

/-! ### Bits of a byte in numbers -/

theorem getLsbD_seven (v : Byte) : v.getLsbD 7 = decide (128 ≤ v.toNat) := BitVec.msb_eq_decide v

theorem getLsbD_six (v : Byte) : v.getLsbD 6 = decide (64 ≤ v.toNat % 128) := by
  have hbit : v.getLsbD 6 = decide (v.toNat / 64 % 2 = 1) := Nat.testBit_eq_decide_div_mod_eq
  rw [hbit]
  exact decide_eq_decide.2 (by omega)

theorem getLsbD_zero (v : Byte) : v.getLsbD 0 = decide (v.toNat % 2 = 1) := Nat.testBit_zero v.toNat

/-! ### BIT -/

/-- Two bytes have an empty conjunction exactly when they have no bit in common. -/
theorem and_eq_zero_iff_no_common_bit (a m : Byte) :
    a &&& m = 0 ↔ ∀ k : Nat, k < 8 → ¬(a.getLsbD k = true ∧ m.getLsbD k = true) := by
  have hbit (k : Nat) : (a &&& m).getLsbD k = false ↔ ¬(a.getLsbD k = true ∧ m.getLsbD k = true) := by
    rw [BitVec.getLsbD_and, ← Bool.and_eq_true, Bool.not_eq_true]
  simp only [← hbit]
  constructor
  · intro h k _
    rw [h]
    exact BitVec.getLsbD_zero
  · intro h
    exact BitVec.eq_of_getLsbD_eq fun k hk => (h k hk).trans BitVec.getLsbD_zero.symm

/-- The flags after BIT in numbers, but for Z (R112). -/
theorem flagsOfBit_eq (a m : Byte) (p : Flags) : flagsOfBit a m p =
    { p with n := decide (128 ≤ m.toNat), v := decide (64 ≤ m.toNat % 128), z := (flagsOfBit a m p).z } := by
  rw [flagsOfBit, getLsbD_seven, getLsbD_six]

theorem flagsOfBit_z (a m : Byte) (p : Flags) :
    (flagsOfBit a m p).z = true ↔ ∀ k : Nat, k < 8 → ¬(a.getLsbD k = true ∧ m.getLsbD k = true) :=
  decide_eq_true_iff.trans (and_eq_zero_iff_no_common_bit a m)

theorem exec_bit (s : State) (b : Byte) (w : Word) :
    ∀ f ∈ Forms.bit b w, exec f.1 s = .next (readOp f.2.1 f.2.2 bitTest s) := by
  intro f hf
  fin_cases hf <;> rfl

theorem readOp_bitTest_p (o : Operand) (n : Nat) (s : State) :
    (readOp o n bitTest s).p = flagsOfBit s.a (loadOperand o s).val s.p := by simp [readOp, bitTest]

/-- Settles O52: AND, ORA and EOR load A with a bitwise operation; BIT writes `flagsOfBit` and nothing else. -/
theorem logicInstructions : Obligations.LogicInstructions := by
  intro s b w
  refine ⟨fun f hf => ⟨_, exec_and s b w f hf, readOp_bitwise (fun _ _ _ => BitVec.getLsbD_and) _ _ s⟩,
    fun f hf => ⟨_, exec_ora s b w f hf, readOp_bitwise (fun _ _ _ => BitVec.getLsbD_or) _ _ s⟩,
    fun f hf => ⟨_, exec_eor s b w f hf, readOp_bitwise (fun _ _ _ => BitVec.getLsbD_xor) _ _ s⟩,
    fun f hf => ⟨_, exec_bit s b w f hf, reads_readOp (fun _ _ => rfl) _ _ s, loadOperand_a _ s, loadOperand_x _ s,
      loadOperand_y _ s, ?_⟩⟩
  rw [readOp_bitTest_p]
  exact ⟨flagsOfBit_eq .., flagsOfBit_z ..⟩

/-! ### Shifted bytes in numbers -/

theorem shiftLeft_one_eq (v : Byte) : v <<< 1 = BitVec.ofNat 8 (2 * v.toNat) := by
  apply BitVec.eq_of_toNat_eq
  rw [BitVec.toNat_shiftLeft, BitVec.toNat_ofNat, Nat.shiftLeft_eq]
  omega

theorem ushiftRight_one_eq (v : Byte) : v >>> 1 = BitVec.ofNat 8 (v.toNat / 2) := by
  have := v.isLt
  apply BitVec.eq_of_toNat_eq
  rw [BitVec.toNat_ushiftRight, BitVec.toNat_ofNat, Nat.shiftRight_eq_div_pow]
  omega

/-- The carry that enters a bit which the shift left clear is added to the shifted byte. -/
theorem or_carry_eq_add {x : Byte} {k : Nat} (hx : x.getLsbD k = false) (c : Bool) :
    x ||| (if c then BitVec.twoPow 8 k else 0) = x + BitVec.ofNat 8 (2 ^ k * carryNat c) := by
  cases c with
  | false => simp [carryNat]
  | true =>
    have hdisjoint : x &&& BitVec.twoPow 8 k = 0 := by rw [BitVec.and_twoPow, hx]; rfl
    have hbit : BitVec.twoPow 8 k = BitVec.ofNat 8 (2 ^ k * carryNat true) :=
      BitVec.eq_of_toNat_eq (by simp [BitVec.toNat_twoPow, carryNat])
    rw [if_pos rfl, ← hbit, BitVec.add_eq_or_of_and_eq_zero _ _ hdisjoint]

theorem shiftRol_val (v : Byte) (c : Bool) : (shiftRol v c).val = BitVec.ofNat 8 (2 * v.toNat + carryNat c) := by
  have h := or_carry_eq_add (x := v <<< 1) (k := 0) (by simp) c
  rw [BitVec.ofNat_add, ← shiftLeft_one_eq, ← Nat.one_mul (carryNat c)]
  exact h

theorem shiftRor_val (v : Byte) (c : Bool) :
    (shiftRor v c).val = BitVec.ofNat 8 (v.toNat / 2 + 128 * carryNat c) := by
  have h := or_carry_eq_add (x := v >>> 1) (k := 7) (by simp) c
  rw [BitVec.ofNat_add, ← ushiftRight_one_eq]
  exact h

/-! ### Shifts and rotates -/

/-- A shift or rotate in numbers, from its result byte and its carry (R113 to R116). -/
theorem shiftByte_eq {f : Byte → Bool → ByteCarry} {v new : Byte} {p : Flags} {c : Bool} (hval : (f v p.c).val = new)
    (hcarry : (f v p.c).carry = c) : shiftByte f v p = (new, Forms.nz new { p with c := c }) := by
  rw [shiftByte, flagsOfShift, hval, hcarry, setNZ_eq_nz]

theorem shiftByte_asl (v : Byte) (p : Flags) : shiftByte shiftAsl v p =
    (BitVec.ofNat 8 (2 * v.toNat), Forms.nz (BitVec.ofNat 8 (2 * v.toNat)) { p with c := decide (128 ≤ v.toNat) }) :=
  shiftByte_eq (shiftLeft_one_eq v) (getLsbD_seven v)

theorem shiftByte_lsr (v : Byte) (p : Flags) : shiftByte shiftLsr v p =
    (BitVec.ofNat 8 (v.toNat / 2), Forms.nz (BitVec.ofNat 8 (v.toNat / 2)) { p with c := decide (v.toNat % 2 = 1) }) :=
  shiftByte_eq (ushiftRight_one_eq v) (getLsbD_zero v)

theorem shiftByte_rol (v : Byte) (p : Flags) : shiftByte shiftRol v p =
    (BitVec.ofNat 8 (2 * v.toNat + carryNat p.c),
      Forms.nz (BitVec.ofNat 8 (2 * v.toNat + carryNat p.c)) { p with c := decide (128 ≤ v.toNat) }) :=
  shiftByte_eq (shiftRol_val v p.c) (getLsbD_seven v)

theorem shiftByte_ror (v : Byte) (p : Flags) : shiftByte shiftRor v p =
    (BitVec.ofNat 8 (v.toNat / 2 + 128 * carryNat p.c),
      Forms.nz (BitVec.ofNat 8 (v.toNat / 2 + 128 * carryNat p.c)) { p with c := decide (v.toNat % 2 = 1) }) :=
  shiftByte_eq (shiftRor_val v p.c) (getLsbD_zero v)

/-- A shift or rotate in accumulator mode writes A and the flags that go with the new A (R62). -/
theorem impliedOp_shiftA_outcome {f : Byte → Bool → ByteCarry} {s : State} {new : Byte} {p : Flags}
    (hf : shiftByte f s.a s.p = (new, Forms.nz new p)) :
    let t := impliedOp 2 (shiftA f) s
    Forms.Implied s 2 t ∧ t.a = new ∧ t.x = s.x ∧ t.y = s.y ∧ t.sp = s.sp ∧ t.p = Forms.nz t.a p := by
  intro t
  have ht : t = finish (setP (setA s new) (Forms.nz new p)) 1 2 := by simp only [t, impliedOp, shiftA, hf]
  rw [ht]
  exact ⟨implied_finish rfl 2, rfl, rfl, rfl, rfl, rfl⟩

theorem exec_asl (s : State) (b : Byte) (w : Word) :
    ∀ f ∈ Forms.asl b w, exec f.1 s = .next (modifyOp f.2.1 f.2.2 (shiftByte shiftAsl) s) := by
  intro f hf
  fin_cases hf <;> rfl

theorem exec_lsr (s : State) (b : Byte) (w : Word) :
    ∀ f ∈ Forms.lsr b w, exec f.1 s = .next (modifyOp f.2.1 f.2.2 (shiftByte shiftLsr) s) := by
  intro f hf
  fin_cases hf <;> rfl

theorem exec_rol (s : State) (b : Byte) (w : Word) :
    ∀ f ∈ Forms.rol b w, exec f.1 s = .next (modifyOp f.2.1 f.2.2 (shiftByte shiftRol) s) := by
  intro f hf
  fin_cases hf <;> rfl

theorem exec_ror (s : State) (b : Byte) (w : Word) :
    ∀ f ∈ Forms.ror b w, exec f.1 s = .next (modifyOp f.2.1 f.2.2 (shiftByte shiftRor) s) := by
  intro f hf
  fin_cases hf <;> rfl

/-- Settles O53: the memory forms are `modifyOp`, the accumulator forms `impliedOp`, on the same four shifts. -/
theorem shiftsAndRotates : Obligations.ShiftsAndRotates := fun s b w =>
  ⟨⟨_, rfl, impliedOp_shiftA_outcome (shiftByte_asl s.a s.p)⟩,
    ⟨_, rfl, impliedOp_shiftA_outcome (shiftByte_lsr s.a s.p)⟩,
    ⟨_, rfl, impliedOp_shiftA_outcome (shiftByte_rol s.a s.p)⟩,
    ⟨_, rfl, impliedOp_shiftA_outcome (shiftByte_ror s.a s.p)⟩,
    fun f hf => ⟨_, exec_asl s b w f hf, modifyOp_outcome f.2.1 f.2.2 (shiftByte_asl _ _)⟩,
    fun f hf => ⟨_, exec_lsr s b w f hf, modifyOp_outcome f.2.1 f.2.2 (shiftByte_lsr _ _)⟩,
    fun f hf => ⟨_, exec_rol s b w f hf, modifyOp_outcome f.2.1 f.2.2 (shiftByte_rol _ _)⟩,
    fun f hf => ⟨_, exec_ror s b w f hf, modifyOp_outcome f.2.1 f.2.2 (shiftByte_ror _ _)⟩⟩

end Sys2Proof.Machine
end

section
/-! SUPPORT. Jumps, subroutines and the exception frame on the stack (45_control.md, R117 to R121, R140, R146). -/

namespace Sys2Proof.Machine

/-! ### What the pushes leave in RAM -/

@[simp] theorem push_sp (s : State) (v : Byte) : (push s v).sp = s.sp - 1 := rfl

@[simp] theorem ramByte_push_same (s : State) (v : Byte) : ramByte (push s v) (stackAddr s.sp) = v := by
  rw [stackAddr_eq_ofNat]
  exact (storesByte_push s v).stored (by simp [← stackAddr_eq_ofNat])

theorem ramByte_push_other {s : State} {a : Word} (v : Byte) (h : a ≠ stackAddr s.sp) :
    ramByte (push s v) a = ramByte s a :=
  (storesByte_push s v).others a (stackAddr_eq_ofNat s.sp ▸ h)

@[simp] theorem pushWord_sp (s : State) (w : Word) : (pushWord s w).sp = s.sp - 2 := by rw [pushWord_eq]

@[simp] theorem ramByte_pushWord_lo (s : State) (w : Word) : ramByte (pushWord s w) (stackAddr (s.sp - 1)) = loByte w :=
  ramByte_push_same (push s (hiByte w)) (loByte w)

@[simp] theorem ramByte_pushWord_hi (s : State) (w : Word) : ramByte (pushWord s w) (stackAddr s.sp) = hiByte w := by
  have hne : stackAddr s.sp ≠ stackAddr (s.sp - 1) := stackAddr_inj.not.2 (by bv_omega)
  exact (ramByte_push_other (s := push s (hiByte w)) _ hne).trans (ramByte_push_same s _)

theorem ramByte_pushWord_other {s : State} {a : Word} (w : Word) (h0 : a ≠ stackAddr s.sp)
    (h1 : a ≠ stackAddr (s.sp - 1)) : ramByte (pushWord s w) a = ramByte s a :=
  (ramByte_push_other (s := push s (hiByte w)) _ h1).trans (ramByte_push_other _ h0)

/-! ### The exception frame -/

/-- Reading the vector leaves the pushed bytes as they are, wherever the vector lies (R140). -/
theorem ramByte_takeException (ret : Word) (b : Bool) (vec : Word) (s : State) (a : Word) :
    ramByte (takeException ret b vec s) a = ramByte (push (pushWord s ret) (pImage b s.p)) a := by
  simp [takeException, read16, ramByte]

@[simp] theorem takeException_sp (ret : Word) (b : Bool) (vec : Word) (s : State) :
    (takeException ret b vec s).sp = s.sp - 3 := by
  have hsp : s.sp - 2 - 1 = s.sp - 3 := by bv_omega
  simpa [takeException, read16] using hsp

@[simp] theorem ramByte_takeException_status (ret : Word) (b : Bool) (vec : Word) (s : State) :
    ramByte (takeException ret b vec s) (stackAddr (s.sp - 2)) = pImage b s.p := by
  rw [ramByte_takeException, ← pushWord_sp s ret, ramByte_push_same]

/-- Outside the status byte the exception frame is that of `pushWord` (R140). -/
theorem ramByte_takeException_eq_pushWord (ret : Word) (b : Bool) (vec : Word) {s : State} {a : Word}
    (h : a ≠ stackAddr (s.sp - 2)) : ramByte (takeException ret b vec s) a = ramByte (pushWord s ret) a := by
  rw [ramByte_takeException, ramByte_push_other _ (by rwa [pushWord_sp])]

@[simp] theorem ramByte_takeException_lo (ret : Word) (b : Bool) (vec : Word) (s : State) :
    ramByte (takeException ret b vec s) (stackAddr (s.sp - 1)) = loByte ret := by
  rw [ramByte_takeException_eq_pushWord _ _ _ (stackAddr_inj.not.2 (by bv_omega)), ramByte_pushWord_lo]

@[simp] theorem ramByte_takeException_hi (ret : Word) (b : Bool) (vec : Word) (s : State) :
    ramByte (takeException ret b vec s) (stackAddr s.sp) = hiByte ret := by
  rw [ramByte_takeException_eq_pushWord _ _ _ (stackAddr_inj.not.2 (by bv_omega)), ramByte_pushWord_hi]

theorem ramByte_takeException_other (ret : Word) (b : Bool) (vec : Word) {s : State} {a : Word} (h0 : a ≠ stackAddr s.sp)
    (h1 : a ≠ stackAddr (s.sp - 1)) (h2 : a ≠ stackAddr (s.sp - 2)) :
    ramByte (takeException ret b vec s) a = ramByte s a :=
  (ramByte_takeException_eq_pushWord _ _ _ h2).trans (ramByte_pushWord_other _ h0 h1)

/-! ### The instructions in full -/

/-- `JSR` in full (R118). -/
theorem exec_jsrAbs (s : State) (w : Word) :
    exec (.jsrAbs w) s = .next { s with
      ram := (pushWord s (s.pc + 2)).ram, sp := s.sp - 2, pc := w, stepCycles := 6 } := by
  change Host.Outcome.next (jumpSubroutine w s) = _
  simp only [jumpSubroutine, pushWord_eq, finishAt]

/-- `RTS` in full (R119). -/
theorem exec_rts (s : State) :
    exec .rts s = .next { s with
      pc := mkWord (ramByte s (stackAddr (s.sp + 1))) (ramByte s (stackAddr (s.sp + 2))) + 1
      sp := s.sp + 2
      stepCycles := 6 } := by
  change Host.Outcome.next (returnSubroutine s) = _
  simp only [returnSubroutine, pullWord_eq, finishAt]

/-- `RTI` in full (R120). -/
theorem exec_rti (s : State) :
    exec .rti s = .next { s with
      p := flagsOf (ramByte s (stackAddr (s.sp + 1)))
      pc := mkWord (ramByte s (stackAddr (s.sp + 2))) (ramByte s (stackAddr (s.sp + 3)))
      sp := s.sp + 3
      stepCycles := 6 } :=
  congrArg Host.Outcome.next (returnFromException_eq s)

/-- The high byte of the pointer of `JMP (ind)` lies in the page of the low byte (R70). -/
theorem indirectHigh_eq (w : Word) :
    mkWord (loByte w + 1) (hiByte w) = BitVec.ofNat 16 (w.toNat / 256 * 256 + (w.toNat + 1) % 256) :=
  BitVec.eq_of_toNat_eq (by simp [BitVec.toNat_add]; omega)

/-- `JMP (ind)` in full: two bus reads inside the pointer's page (R117). -/
theorem exec_jmpInd (s : State) (w : Word) :
    let lo := memRead s w
    let hi := memRead lo.2 (BitVec.ofNat 16 (w.toNat / 256 * 256 + (w.toNat + 1) % 256))
    exec (.jmpInd w) s = .next (finishAt hi.2 (mkWord lo.1 hi.1) 5) := by
  rw [← indirectHigh_eq]
  rfl

theorem readsOnly_memRead {s u : State} (h : Forms.ReadsOnly s u) (a : Word) : Forms.ReadsOnly s (memRead u a).2 := by
  have hA := memRead_ciaA u a
  have hB := memRead_ciaB u a
  rw [Forms.ReadsOnly] at h ⊢
  rw [memRead_frame, hA, hB, h]

theorem readsOnly_finishAt {s u : State} (h : Forms.ReadsOnly s u) (pc : Word) (n : Nat) :
    Forms.ReadsOnly s (finishAt u pc n) :=
  congrArg (finishAt · pc n) h

/-! ### Jumps, calls and returns -/

/-- Settles O54, from each instruction in full and the bytes that `pushWord` leaves. -/
theorem jumpsAndSubroutines : Obligations.JumpsAndSubroutines := by
  intro s w
  have hlow : Forms.ReadsOnly s (memRead s w).2 := readsOnly_memRead (u := s) rfl w
  exact ⟨⟨_, rfl, rfl⟩,
    ⟨_, exec_jmpInd s w, ⟨mkWord_toNat .., rfl⟩, fun _ => (memRead_ramByte ..).trans (memRead_ramByte ..),
      readsOnly_finishAt (readsOnly_memRead hlow _) _ 5, by simp⟩,
    ⟨_, exec_jsrAbs s w, rfl, rfl, ramByte_pushWord_hi .., ramByte_pushWord_lo .., fun _ => ramByte_pushWord_other _, rfl,
      rfl, rfl, rfl, rfl, rfl⟩,
    ⟨_, exec_rts s, rfl, by simp [BitVec.toNat_add], rfl, fun _ => rfl⟩⟩

/-- Settles O55: BRK from the exception frame and `takeException_eq`, RTI from its equation. -/
theorem breakAndReturnFromInterrupt : Obligations.BreakAndReturnFromInterrupt := by
  intro s
  have hfull := takeException_eq (vec := irqVector) (s.pc + 2) true s (by decide) (by decide)
  refine ⟨⟨_, rfl, ramByte_takeException_hi .., ramByte_takeException_lo .., ramByte_takeException_status ..,
    fun _ => ramByte_takeException_other _ _ _, takeException_sp .., takeException_p .., ?_⟩,
    ⟨_, exec_rti s, flagsOf_eq_numbers _, rfl, rfl, rfl⟩⟩
  rw [hfull]
  exact ⟨rfl, rfl, rfl, rfl, rfl, rfl⟩

/-- RTI resumes what an exception interrupted, whatever vector was taken (R140, R146). -/
theorem exec_rti_of_exceptionFrame {s u : State} {ret : Word} {b : Bool} {vec : Word}
    (hsp : u.sp = (takeException ret b vec s).sp)
    (hstack : ∀ k : Byte, k = s.sp ∨ k = s.sp - 1 ∨ k = s.sp - 2 →
      ramByte u (stackAddr k) = ramByte (takeException ret b vec s) (stackAddr k)) :
    ∃ t, exec .rti u = .next t ∧ t.pc = ret ∧ t.p = s.p ∧ t.sp = s.sp := by
  rw [takeException_sp] at hsp
  have h1 : u.sp + 1 = s.sp - 2 := by bv_omega
  have h2 : u.sp + 2 = s.sp - 1 := by bv_omega
  have h3 : u.sp + 3 = s.sp := by bv_omega
  refine ⟨_, exec_rti u, ?_, ?_, h3⟩
  · rw [h2, h3, hstack _ (.inr (.inl rfl)), hstack _ (.inl rfl), ramByte_takeException_lo, ramByte_takeException_hi,
      mkWord_lo_hi]
  · rw [h1, hstack _ (.inr (.inr rfl)), ramByte_takeException_status, flagsOf_pImage]

/-- Settles O10: entry and BRK leave the frame of `takeException`, JSR that of `pushWord`, and what is pulled is what was
pushed. -/
theorem returnsUndoTheirCalls : Obligations.ReturnsUndoTheirCalls := by
  refine ⟨fun s u vec _ => exec_rti_of_exceptionFrame, fun s u b hb => ?_, fun s u j w hj hsp hstack => ?_⟩
  · obtain rfl := Host.Outcome.next.inj hb
    exact exec_rti_of_exceptionFrame
  · obtain rfl := Host.Outcome.next.inj ((exec_jsrAbs s w).symm.trans hj)
    have h1 : u.sp + 1 = s.sp - 1 := by bv_omega
    have h2 : u.sp + 2 = s.sp := by bv_omega
    have hlo := (hstack _ (.inr rfl)).trans (ramByte_pushWord_lo ..)
    have hhi := (hstack _ (.inl rfl)).trans (ramByte_pushWord_hi ..)
    refine ⟨_, exec_rts u, ?_, h2⟩
    rw [h1, h2, hlo, hhi, mkWord_lo_hi, BitVec.add_assoc]
    rfl

end Sys2Proof.Machine
end

section
/-! SUPPORT. Flag instructions and NOP, and the interrupts of the step after them (46_flags_misc.md, R130 to R138). -/

namespace Sys2Proof.Machine

/-! ### The step with an interrupt pending -/

/-- A pending NMI is serviced whatever I is (R138). -/
theorem cpuStep_of_nmiPending {s : State} (hf : s.fault = none) (hn : s.nmiPending = true) :
    cpuStep s = .next (interruptEntry nmiVector { s with nmiPending := false }) := by
  simp [cpuStep, hf, hn]

/-- Without a pending NMI, a pending IRQ is serviced while I is clear (R138). -/
theorem cpuStep_of_irqPending {s : State} (hf : s.fault = none) (hn : s.nmiPending = false)
    (hq : s.irqPending = true) (hi : s.p.i = false) :
    cpuStep s = .next (interruptEntry irqVector { s with irqPending := false }) := by
  simp [cpuStep, hf, hn, hq, hi]

/-! ### What CLI and SEI leave in I -/

theorem exec_cli_i {s t : State} (h : exec .cli s = .next t) : t.p.i = false := by
  obtain rfl := Host.Outcome.next.inj h
  rfl

theorem exec_sei_i {s t : State} (h : exec .sei s = .next t) : t.p.i = true := by
  obtain rfl := Host.Outcome.next.inj h
  rfl

/-- Settles O57: each of the eight instructions is `impliedOp` on one flag update, or on none for NOP; the interrupts of the
next step go by the I that CLI and SEI leave. -/
theorem flagInstructionsAndNop : Obligations.FlagInstructionsAndNop := by
  refine ⟨fun s f hf => ?_, fun s t u hcli hp hf hn hq => ?_, fun s t u hsei hp hf => ⟨fun hn => ?_, ?_, rfl⟩⟩
  · fin_cases hf <;> rfl
  · have hi : u.p.i = false := hp ▸ exec_cli_i hcli
    exact cpuStep_of_irqPending hf hn hq hi
  · have hi : u.p.i = true := hp ▸ exec_sei_i hsei
    exact ⟨hn, .inr hi⟩
  · exact cpuStep_of_nmiPending hf

end Sys2Proof.Machine
end

section
/-! SUPPORT. Exceptions (60_exceptions.md, R138 to R148): the frame of every instruction, interrupt entry, and the priorities
of the CPU step. -/

namespace Sys2Proof.Machine

/-! ### What every instruction leaves alone -/

/-- A bus write moves no counter of the VIC-II (R42, R158). -/
theorem memWrite_vic (s : State) (a : Word) (v : Byte) :
    (memWrite s a v).vic = { s.vic with vreg := (memWrite s a v).vic.vreg, latch := (memWrite s a v).vic.latch } := by
  by_cases hp : readSource s a = .port
  · rw [memWrite_port_region v hp, portWrite_frame]
  · by_cases hi : readSource s a = .io
    · rw [memWrite_io_region v hi]
      unfold ioWrite
      split
      case h_1 => exact vicWrite_frame ..
      all_goals rfl
    · rw [memWrite_ram_region v hp hi, setRam_frame]

/-- `t` is `s` but for the CPU's registers, flags, PC and count, and for what bus accesses change: RAM, the port, color RAM and
its draws, the CIAs, and the VIC-II outside its counters. -/
def OutsideCpuKept (s t : State) : Prop :=
  t = { s with
    a := t.a, x := t.x, y := t.y, sp := t.sp, pc := t.pc, p := t.p, stepCycles := t.stepCycles
    ram := t.ram, ddr := t.ddr, data := t.data, color := t.color, colorDraws := t.colorDraws
    vic := { t.vic with raster := s.vic.raster, acc := s.vic.acc, frameAvailable := s.vic.frameAvailable }
    ciaA := t.ciaA, ciaB := t.ciaB }

theorem outsideCpuKept_stable (s : State) : Stable (OutsideCpuKept s) where
  read u a h := by
    rw [OutsideCpuKept] at h ⊢
    rw [memRead_frame, h]
  write u a v h := by
    have hvic := memWrite_vic u a v
    rw [OutsideCpuKept] at h ⊢
    rw [memWrite_frame, hvic, h]
  regs u a x y sp pc p n h := by
    rw [OutsideCpuKept] at h ⊢
    rw [h]

/-- Settles O7: bus accesses and register updates keep `OutsideCpuKept`, so every instruction does. -/
theorem everyInstructionCompletesInsideTheCpu : Obligations.EveryInstructionCompletesInsideTheCpu := fun i s =>
  exec_stable (outsideCpuKept_stable s) i rfl

/-! ### Interrupt entry -/

/-- From $E000 up a bus read is KERNAL ROM or RAM by HIRAM (R40, R41). -/
theorem memRead_high {s : State} {a : Word} (h : 0xE000 ≤ a.toNat) :
    (memRead s a).1 = if hiram s then kernalByte s a else ramByte s a := by
  rw [memRead, readSource_high h]
  cases hiram s <;> rfl

/-- The vectors of NMI and IRQ are the words at $FFFA and $FFFE (R50). -/
theorem interruptVector_high {vec : Word} (h : vec = nmiVector ∨ vec = irqVector) :
    0xFFFA ≤ vec.toNat ∧ 0xFFFA ≤ (vec + 1).toNat := by
  rcases h with rfl | rfl <;> decide

/-- Settles O8: the pushed bytes are the exception frame, and `takeException_eq` gives the rest of the entry in full. -/
theorem interruptEntrySequence : Obligations.InterruptEntrySequence := by
  intro s vec hvec t bit vectorByte
  obtain ⟨hlo, hhi⟩ := interruptVector_high hvec
  have hfull : t = _ := takeException_eq s.pc false s hlo hhi
  refine ⟨ramByte_takeException_hi .., ramByte_takeException_lo .., ramByte_takeException_status .., pImage_toNat false s.p,
    fun _ => ramByte_takeException_other _ _ _, takeException_sp .., takeException_p .., ?_,
    memRead_high (by omega), memRead_high (by omega), ?_⟩
  · rw [hfull]
  · rw [hfull]
    exact ⟨rfl, rfl, rfl, rfl, rfl⟩

/-! ### The priorities of the CPU step -/

/-- After a recorded fault the CPU takes no step (R27, R138). -/
theorem cpuStep_of_fault {s : State} (h : s.fault.isSome = true) : cpuStep s = .fault .halted := by
  simp [cpuStep, h]

/-- Entry costs 7 cycles (R140). -/
theorem interruptEntry_stepCycles (vec : Word) (s : State) : (interruptEntry vec s).stepCycles = 7 := rfl

/-- With nothing pending the CPU step is fatal at an illegal opcode (R76, R138). -/
theorem cpuStep_illegal {s : State} (hf : s.fault = none) (hn : NoInterrupt s) {op : Byte} {u : State}
    (h : fetch s = .illegal op u) : cpuStep s = .next (raiseFatal op u) := by
  rw [cpuStep_fetch hf hn, h]

/-- With nothing pending the CPU step executes the fetched instruction (R138). -/
theorem cpuStep_instr {s : State} (hf : s.fault = none) (hn : NoInterrupt s) {i : Instr} {u : State}
    (h : fetch s = .instr i u) : cpuStep s = exec i u := by
  rw [cpuStep_fetch hf hn, h]

/-- Settles O9: one equation of `cpuStep` for each case, the last by the shape that the opcode selects. -/
theorem stepPriority : Obligations.StepPriority := fun _ =>
  ⟨cpuStep_of_fault,
    fun hf hn => ⟨cpuStep_of_nmiPending hf hn, interruptEntry_stepCycles ..⟩,
    fun hf hn hq hi => ⟨cpuStep_of_irqPending hf hn hq hi, interruptEntry_stepCycles ..⟩,
    fun hf hn => ⟨fun h => cpuStep_illegal hf hn (fetch_illegal h), fun _ h => cpuStep_instr hf hn (fetch_f1 h),
      fun _ h => cpuStep_instr hf hn (fetch_f2 h), fun _ h => cpuStep_instr hf hn (fetch_f3 h)⟩⟩

end Sys2Proof.Machine
end

section
/-! SUPPORT. The VIC-II's raster: a tick as a run of lines, and the 312 lines of a frame (61_vic_ii.md section 2, R161,
R162). -/

namespace Sys2Proof.Machine

/-! ### One raster line -/

/-- The compare value in numbers: bit 7 of $D011 above $D012 (R161). -/
theorem vicCompare_toNat (v : Vic) : (vicCompare v).toNat = 256 * (v.vreg[0x11].toNat / 128) + v.vreg[0x12].toNat := by
  have hhi : v.vreg[0x11].toNat / 128 % 2 = v.vreg[0x11].toNat / 128 := by omega
  rw [vicCompare, BitVec.toNat_append, ← Nat.shiftLeft_add_eq_or_of_lt (BitVec.isLt _), BitVec.extractLsb'_toNat,
    Nat.shiftRight_eq_div_pow, Nat.shiftLeft_eq]
  omega

theorem vicCompare_congr {u v : Vic} (h : u.vreg = v.vreg) : vicCompare u = vicCompare v := by
  simp [vicCompare, h]

/-- The wrap test as a test of the line that ends. -/
theorem raster_succ_eq_iff (r : BitVec 9) : r + 1 = 312 ↔ r = 311 := by
  constructor <;> intro h <;> bv_omega

/-- The line step by the line that ends: after 311 comes 0, with a frame available (R162). -/
theorem vicLine_eq (v : Vic) :
    vicLine v = { v with
      raster := if v.raster = 311 then 0 else v.raster + 1
      frameAvailable := if v.raster = 311 then true else v.frameAvailable
      latch := if (if v.raster = 311 then 0 else v.raster + 1) = vicCompare v then v.latch ||| 1 else v.latch } := by
  simp only [vicLine, decide_eq_true_eq, raster_succ_eq_iff]
  by_cases h : v.raster = 311
  · simp only [h, decide_true, Bool.or_true, if_true]
  · simp only [h, decide_false, Bool.or_false, if_false]

/-- The line step neither reads nor writes the accumulator, however often it runs. -/
theorem vicLines_withAcc (k a : Nat) (v : Vic) : vicLine^[k] { v with acc := a } = { vicLine^[k] v with acc := a } :=
  (Function.Semiconj.iterate_right (f := fun u : Vic => { u with acc := a }) (ga := vicLine) (fun _ => rfl) k v).symm

/-! ### A tick is a run of lines -/

/-- Below 63 accumulated cycles the line stays (R162). -/
theorem vicTick_of_lt {v : Vic} {n : Nat} (h : v.acc + n < 63) : vicTick n v = { v with acc := v.acc + n } := by
  rw [vicTick, Nat.div_eq_of_lt h, Nat.mod_eq_of_lt h, Function.iterate_zero_apply]

/-- From 63 accumulated cycles on, 63 pay for one line and the rest is ticked on (R162). -/
theorem vicTick_of_le {v : Vic} {n : Nat} (h : 63 ≤ v.acc + n) :
    vicTick n v = vicTick 0 { vicLine v with acc := v.acc + n - 63 } := by
  have hdiv : (v.acc + n) / 63 = (v.acc + n - 63) / 63 + 1 := by omega
  have hmod : (v.acc + n) % 63 = (v.acc + n - 63) % 63 := by omega
  simp only [vicTick, vicLines_withAcc, Nat.add_zero, hdiv, hmod, Function.iterate_succ_apply]

/-- Settles O32: `vicTick` divides where the spec loops, and the division takes off one line at a time. -/
theorem vicTickIsTheLineLoop : Obligations.VicTickIsTheLineLoop := fun v n =>
  ⟨vicCompare_toNat v, vicTick_of_lt, fun h => (vicTick_of_le h).trans (by rw [vicLine_eq])⟩

/-- Ticks add up: the accumulator carries what the first tick leaves over (R162). -/
theorem vicTick_vicTick (v : Vic) (m n : Nat) : vicTick n (vicTick m v) = vicTick (m + n) v := by
  have hlines : (v.acc + (m + n)) / 63 = ((v.acc + m) % 63 + n) / 63 + (v.acc + m) / 63 := by omega
  have hrest : (v.acc + (m + n)) % 63 = ((v.acc + m) % 63 + n) % 63 := by omega
  simp only [vicTick, vicLines_withAcc, hlines, hrest, Function.iterate_add_apply]

/-! ### A run of lines -/

theorem vicLines_vreg (v : Vic) (k : Nat) : (vicLine^[k] v).vreg = v.vreg :=
  Function.Iterate.rec (fun u : Vic => u.vreg = v.vreg) (f := vicLine) rfl (fun _ hu => hu) k

/-- On a legal line the raster counts modulo 312 (R161, R162). -/
theorem vicLine_raster_toNat {v : Vic} (h : v.raster.toNat < 312) :
    (vicLine v).raster.toNat = (v.raster.toNat + 1) % 312 := by
  rw [vicLine_eq]
  split <;> bv_omega

theorem vicLines_raster_toNat {v : Vic} (h : v.raster.toNat < 312) (k : Nat) :
    (vicLine^[k] v).raster.toNat = (v.raster.toNat + k) % 312 := by
  induction k with
  | zero => exact (Nat.mod_eq_of_lt h).symm
  | succ k ih =>
    rw [Function.iterate_succ_apply', vicLine_raster_toNat (by omega), ih]
    omega

/-- A frame is available after `k` lines if it was before or the raster has passed line 311 (R162). -/
theorem vicLines_frameAvailable {v : Vic} (h : v.raster.toNat < 312) (k : Nat) :
    (vicLine^[k] v).frameAvailable = (v.frameAvailable || decide (312 ≤ v.raster.toNat + k)) := by
  induction k with
  | zero => simp [h]
  | succ k ih =>
    have hwrap : (vicLine^[k] v).raster = 311 ↔ (v.raster.toNat + k) % 312 = 311 := by
      rw [← vicLines_raster_toNat h, ← BitVec.toNat_inj]
      rfl
    rw [Function.iterate_succ_apply', vicLine_eq, ih]
    simp only [hwrap]
    split
    · have : 312 ≤ v.raster.toNat + (k + 1) := by omega
      simp [this]
    · have : 312 ≤ v.raster.toNat + k ↔ 312 ≤ v.raster.toNat + (k + 1) := by omega
      simp only [this]

/-- `k` lines set the raster bit of the latch exactly when one of the new lines is the compared one (R161, R162). -/
theorem vicLines_latch {v : Vic} (h : v.raster.toNat < 312) (k : Nat) :
    (vicLine^[k] v).latch =
      if ∃ j, j < k ∧ (v.raster.toNat + (j + 1)) % 312 = (vicCompare v).toNat then v.latch ||| 1 else v.latch := by
  induction k with
  | zero => simp
  | succ k ih =>
    have hcompare : vicCompare (vicLine^[k] v) = vicCompare v := vicCompare_congr (vicLines_vreg v k)
    have hmatch : (vicLine^[k + 1] v).raster = vicCompare v ↔
        (v.raster.toNat + (k + 1)) % 312 = (vicCompare v).toNat := by
      rw [← vicLines_raster_toNat h, BitVec.toNat_inj]
    rw [Function.iterate_succ_apply', vicLine_latch, ← Function.iterate_succ_apply' vicLine, hcompare, ih]
    simp only [hmatch, Nat.exists_lt_succ_right]
    by_cases hk : (v.raster.toNat + (k + 1)) % 312 = (vicCompare v).toNat
    · simp only [hk, or_true, if_true]
      split
      · rw [BitVec.or_assoc, BitVec.or_self]
      · rfl
    · simp only [hk, or_false, if_false]

theorem vicTick_vreg (v : Vic) (n : Nat) : (vicTick n v).vreg = v.vreg := vicLines_vreg v _

/-! ### A frame -/

/-- From an accumulator below 63, 19,656 cycles are 312 whole lines. -/
theorem vicTick_frame {v : Vic} (h : v.acc < 63) : vicTick 19656 v = { vicLine^[312] v with acc := v.acc } := by
  have hlines : (v.acc + 19656) / 63 = 312 := by omega
  have hrest : (v.acc + 19656) % 63 = v.acc := by omega
  rw [vicTick, hlines, hrest]

/-- A compare value below 312 is met by one of any 312 lines in a row. -/
theorem exists_line_eq {r compare : Nat} (hr : r < 312) (hc : compare < 312) :
    ∃ j, j < 312 ∧ (r + (j + 1)) % 312 = compare :=
  ⟨(compare + 311 - r) % 312, Nat.mod_lt _ (by decide), by omega⟩

/-- A compare value of 312 or more is met by no line, so the latch stays (R161). -/
theorem vicTick_latch_of_compare_ge {v : Vic} (h : v.raster.toNat < 312) (hc : 312 ≤ (vicCompare v).toNat) (n : Nat) :
    (vicTick n v).latch = v.latch :=
  (vicLines_latch h _).trans (if_neg fun ⟨_, _, hj⟩ => by omega)

/-- Settles O33: 312 lines bring the raster around once, past line 311 and past every compare value there is. -/
theorem vicFrameIs19656Cycles : Obligations.VicFrameIs19656Cycles := by
  refine ⟨vicTick_vicTick, fun v hr ha => ?_⟩
  simp only [← vicCompare_toNat]
  refine ⟨?_, ?_, ?_, trivial, fun hc => ?_, vicTick_latch_of_compare_ge hr, vicTick_vreg v _⟩ <;> rw [vicTick_frame ha]
  · apply BitVec.eq_of_toNat_eq
    rw [vicLines_raster_toNat hr]
    omega
  · rw [vicLines_frameAvailable hr, decide_eq_true (by omega), Bool.or_true]
  · rw [vicLines_latch hr, if_pos (exists_line_eq hr hc), BitVec.getLsbD_or]
    exact Bool.or_true _

end Sys2Proof.Machine
end

section
/-! SUPPORT. The VIC-II's register file: what each register reads, and what a write changes (61_vic_ii.md section 1, R155 to
R163). -/

namespace Sys2Proof.Machine

/-! ### The interrupt line -/

/-- Two words of any width have a nonempty conjunction exactly when they have a bit in common. -/
theorem and_ne_zero_iff_common_bit {w : Nat} (x y : BitVec w) :
    x &&& y ≠ 0 ↔ ∃ k : Nat, k < w ∧ x.getLsbD k = true ∧ y.getLsbD k = true := by
  simp only [← Bool.and_eq_true, ← BitVec.getLsbD_and]
  constructor
  · contrapose!
    intro h
    exact BitVec.eq_of_getLsbD_eq fun k hk => (Bool.eq_false_iff.2 (h k hk)).trans BitVec.getLsbD_zero.symm
  · rintro ⟨k, -, hk⟩ h
    rw [h] at hk
    exact absurd hk (by simp)

/-- The line is up when a latch bit is enabled in $D01A (R163). -/
theorem vicIrqLine_iff (v : Vic) :
    vicIrqLine v = true ↔ ∃ k : Nat, k < 4 ∧ v.latch.getLsbD k = true ∧ v.vreg[0x1A].getLsbD k = true := by
  rw [vicIrqLine, decide_eq_true_iff, and_ne_zero_iff_common_bit]
  refine exists_congr fun k => and_congr_right fun hk => ?_
  rw [BitVec.getLsbD_setWidth, decide_eq_true hk, Bool.true_and]

/-! ### Reads -/

theorem vicRead_unused {v : Vic} {i : BitVec 6} (h : 0x2E < i.toNat) : vicRead v i = 0xFF := dif_neg (by omega)

theorem vicRead_storage {v : Vic} {i : BitVec 6} (h : i.toNat < 47) (h11 : i ≠ 0x11) (h12 : i ≠ 0x12) (h19 : i ≠ 0x19) :
    vicRead v i = v.vreg[i.toNat] := by
  rw [vicRead, dif_pos h, if_neg h11, if_neg h12, if_neg h19]

theorem vicRead_control (v : Vic) : vicRead v 0x11 = (v.vreg[0x11] &&& 0x7F) ||| ((v.raster >>> 8).setWidth 8 <<< 7) := rfl

theorem vicRead_raster (v : Vic) : vicRead v 0x12 = v.raster.setWidth 8 := rfl

theorem vicRead_irq (v : Vic) : vicRead v 0x19 = v.latch.setWidth 8 ||| (if vicIrqLine v then 0x80 else 0x00) := rfl

theorem vicRead_control_toNat (v : Vic) :
    (vicRead v 0x11).toNat = v.vreg[0x11].toNat % 128 + 128 * (v.raster.toNat / 256) := by
  have hlo : v.vreg[0x11].toNat &&& 127 = v.vreg[0x11].toNat % 128 := Nat.and_two_pow_sub_one_eq_mod _ 7
  have hhi : v.raster.toNat / 256 % 256 * 128 % 256 = v.raster.toNat / 256 * 128 := by omega
  have hor := Nat.shiftLeft_add_eq_or_of_lt (i := 7) (Nat.mod_lt v.vreg[0x11].toNat (y := 128) (by decide))
    (v.raster.toNat / 256)
  rw [vicRead_control, BitVec.toNat_or, BitVec.toNat_and, BitVec.toNat_shiftLeft, BitVec.toNat_setWidth,
    BitVec.toNat_ushiftRight, Nat.shiftRight_eq_div_pow, Nat.shiftLeft_eq, Nat.lor_comm]
  rw [Nat.shiftLeft_eq] at hor
  refine (congrArg₂ (· ||| ·) hhi hlo).trans (hor.symm.trans ?_)
  omega

theorem vicRead_raster_toNat (v : Vic) : (vicRead v 0x12).toNat = v.raster.toNat % 256 := by
  rw [vicRead_raster, BitVec.toNat_setWidth]

theorem vicRead_irq_toNat (v : Vic) :
    (vicRead v 0x19).toNat = v.latch.toNat + (if vicIrqLine v then 128 else 0) := by
  have hor := Nat.shiftLeft_add_eq_or_of_lt (i := 7) (show v.latch.toNat < 128 by omega) 1
  have hlt : v.latch.toNat % 256 = v.latch.toNat := by omega
  rw [vicRead_irq, BitVec.toNat_or, BitVec.toNat_setWidth, hlt, Nat.lor_comm]
  cases vicIrqLine v
  · exact Nat.zero_or _
  · exact hor.symm.trans (Nat.add_comm ..)

/-- What a register's read depends on: the raster, its own byte, and at $D019 the latch and the enable register (R157). -/
theorem vicRead_congr {u v : Vic} {k : BitVec 6} (hraster : u.raster = v.raster)
    (hreg : ∀ h : k.toNat < 47, u.vreg[k.toNat] = v.vreg[k.toNat])
    (hirq : k = 0x19 → u.latch = v.latch ∧ u.vreg[0x1A] = v.vreg[0x1A]) : vicRead u k = vicRead v k := by
  by_cases h : k.toNat < 47
  · by_cases h11 : k = 0x11
    · subst h11
      have hown : u.vreg[0x11] = v.vreg[0x11] := hreg h
      rw [vicRead_control, vicRead_control, hraster, hown]
    · by_cases h12 : k = 0x12
      · subst h12
        rw [vicRead_raster, vicRead_raster, hraster]
      · by_cases h19 : k = 0x19
        · obtain ⟨hlatch, henable⟩ := hirq h19
          rw [h19, vicRead_irq, vicRead_irq, vicIrqLine, vicIrqLine, hlatch, henable]
        · rw [vicRead_storage h h11 h12 h19, vicRead_storage h h11 h12 h19, hreg h]
  · rw [vicRead_unused (by omega), vicRead_unused (by omega)]

/-! ### Writes -/

theorem vicWrite_unused {v : Vic} {i : BitVec 6} {b : Byte} (h : 0x2E < i.toNat) : vicWrite v i b = v := dif_neg (by omega)

/-- A write of $D019 clears the latch bits written as 1 (R159). -/
theorem vicWrite_irq (v : Vic) (b : Byte) : vicWrite v 0x19 b = { v with latch := v.latch &&& ~~~(b.setWidth 4) } := rfl

theorem vicWrite_storage {v : Vic} {i : BitVec 6} {b : Byte} (h : i.toNat < 47) (h19 : i ≠ 0x19) :
    vicWrite v i b = { v with vreg := v.vreg.set i.toNat b } := by
  rw [vicWrite, dif_pos h, if_neg h19]

theorem vicWrite_irq_latch_getLsbD (v : Vic) (b : Byte) {k : Nat} (hk : k < 4) :
    (vicWrite v 0x19 b).latch.getLsbD k = (v.latch.getLsbD k && !b.getLsbD k) := by
  rw [vicWrite_irq, BitVec.getLsbD_and, BitVec.getLsbD_not, BitVec.getLsbD_setWidth, decide_eq_true hk, Bool.true_and,
    Bool.true_and]

theorem vicWrite_latch_of_ne {v : Vic} {i : BitVec 6} {b : Byte} (h19 : i ≠ 0x19) : (vicWrite v i b).latch = v.latch := by
  by_cases h : i.toNat < 47
  · rw [vicWrite_storage h h19]
  · rw [vicWrite_unused (by omega)]

/-- A write to a storage register sets its own byte of the file (R158). -/
theorem vicWrite_vreg {v : Vic} {i : BitVec 6} {b : Byte} (h : i.toNat < 47) (h19 : i ≠ 0x19) {k : Nat} (hk : k < 47) :
    (vicWrite v i b).vreg[k] = if k = i.toNat then b else v.vreg[k] := by
  simp only [vicWrite_storage h h19, Vector.getElem_set, eq_comm]

/-- A write changes no byte of the file but its own register's (R158, R159). -/
theorem vicWrite_vreg_other {v : Vic} {i : BitVec 6} {b : Byte} {k : Nat} (hk : k < 47) (hne : k ≠ i.toNat) :
    (vicWrite v i b).vreg[k] = v.vreg[k] := by
  by_cases h : i.toNat < 47
  · by_cases h19 : i = 0x19
    · subst h19
      rw [vicWrite_irq]
    · rw [vicWrite_vreg h h19 hk, if_neg hne]
  · rw [vicWrite_unused (by omega)]

/-- No other register's read changes, but that $1A is part of what $D019 reads (R157, R163). -/
theorem vicRead_vicWrite_other {v : Vic} {i k : BitVec 6} {b : Byte} (hne : k ≠ i) (hex : ¬(i = 0x1A ∧ k = 0x19)) :
    vicRead (vicWrite v i b) k = vicRead v k := by
  refine vicRead_congr (vicWrite_raster ..) (fun h => vicWrite_vreg_other h (BitVec.toNat_inj.not.2 hne)) fun hk => ?_
  have hi : (0x1A : BitVec 6) ≠ i := fun hi => hex ⟨hi.symm, hk⟩
  exact ⟨vicWrite_latch_of_ne fun hi => hne (hk.trans hi.symm), vicWrite_vreg_other (by decide) (BitVec.toNat_inj.not.2 hi)⟩

/-- A write of $1A leaves the low seven bits of $D019 (R157, R163). -/
theorem vicRead_irq_after_enable (v : Vic) (b : Byte) :
    (vicRead (vicWrite v 0x1A b) 0x19).toNat % 128 = (vicRead v 0x19).toNat % 128 := by
  rw [vicRead_irq_toNat, vicRead_irq_toNat, vicWrite_latch_of_ne (by decide)]
  split <;> split <;> omega

/-- Settles O34: one law for each kind of register, for reads and for writes. -/
theorem vicRegisterFile : Obligations.VicRegisterFile := fun v i b =>
  ⟨fun h h11 h12 h19 => by rw [vicRead_storage (by omega) h11 h12 h19, vicWrite_vreg (by omega) h19, if_pos rfl],
    fun h h19 _ hk => vicWrite_vreg (by omega) h19 hk, vicWrite_latch_of_ne, by rw [vicWrite_irq],
    fun _ => vicRead_vicWrite_other, vicRead_irq_after_enable v b, fun h => ⟨vicWrite_unused h, vicRead_unused h⟩,
    fun _ => vicWrite_irq_latch_getLsbD v b, vicRead_control_toNat v, vicRead_raster_toNat v, vicRead_irq_toNat v,
    vicIrqLine_iff v, vicWrite_raster .., vicWrite_acc .., vicWrite_frameAvailable ..⟩

end Sys2Proof.Machine
end

section
/-! SUPPORT. The snapshot: its bases, its cells, and what it depends on (61_vic_ii.md section 3, R164, R165). -/

namespace Sys2Proof.Machine

/-! ### The bases -/

/-- An input line of port A reads 1, an output line its data bit (R169, R172). -/
theorem ciaPortA_getLsbD (c : Cia) {k : Nat} (hk : k < 8) :
    (ciaPortA c).getLsbD k = (c.pra.getLsbD k || !c.ddra.getLsbD k) := by
  simp [ciaPortA, hk]

theorem and_three_toNat (v : Byte) : (v &&& 0x03).toNat = (v.getLsbD 0).toNat + 2 * (v.getLsbD 1).toNat := by
  have hmod : (v &&& 0x03).toNat = v.toNat % 4 := Nat.and_two_pow_sub_one_eq_mod v.toNat 2
  have hone : v.getLsbD 1 = decide (v.toNat / 2 % 2 = 1) := Nat.testBit_eq_decide_div_mod_eq
  rw [hmod, getLsbD_zero, hone]
  simp only [Bool.toNat, Bool.cond_decide]
  split <;> split <;> omega

/-- A port line as a number: 0 exactly for an output driven 0. -/
theorem portLine_toNat (ddr pr : Bool) : (pr || !ddr).toNat = if ddr = true ∧ pr = false then 0 else 1 := by
  cases ddr <;> cases pr <;> rfl

/-- The bank of CIA-B's port A in numbers (R164). -/
theorem vicBank_eq (s : State) :
    let line (k : Nat) : Nat := if s.ciaB.ddra.getLsbD k = true ∧ s.ciaB.pra.getLsbD k = false then 0 else 1
    vicBank s = (3 - (line 0 + 2 * line 1)) * 16384 := by
  simp only [vicBank, and_three_toNat, ciaPortA_getLsbD _ (show 0 < 8 by decide), ciaPortA_getLsbD _ (show 1 < 8 by decide),
    portLine_toNat]

theorem videoBase_eq (s : State) : videoBase s = vicBank s + s.vic.vreg[0x18].toNat / 16 * 1024 := by
  rw [videoBase, BitVec.toNat_ushiftRight, Nat.shiftRight_eq_div_pow]

theorem charBase_eq (s : State) : charBase s = vicBank s + s.vic.vreg[0x18].toNat / 2 % 8 * 2048 := by
  have hmod : ((s.vic.vreg[0x18] >>> 1) &&& 0x07).toNat = (s.vic.vreg[0x18] >>> 1).toNat % 8 :=
    Nat.and_two_pow_sub_one_eq_mod _ 3
  rw [charBase, hmod, BitVec.toNat_ushiftRight, Nat.shiftRight_eq_div_pow]

/-! ### The cells -/

theorem snapshot_row (s : State) {r : Nat} (h : r < 25) :
    (snapshot s).cells[r]? = some ((List.range 40).map (snapshotCell s r)) := by
  simp [snapshot, h]

theorem snapshot_cell (s : State) {r c : Nat} (hr : r < 25) (hc : c < 40) :
    ((snapshot s).cells[r]?).bind (fun row => row[c]?) = some (snapshotCell s r c) := by
  simp [snapshot_row s hr, hc]

/-- A cell in terms of the memories: the address is taken modulo 65536 (R165). -/
theorem snapshotCell_eq (s : State) (r c : Nat) :
    snapshotCell s r c =
      { screenCode := Memory.read Config.ramFill s.ram ((videoBase s + r * 40 + c) % 65536)
        color := Memory.read Config.colorFill s.color (r * 40 + c) } := by
  rw [snapshotCell, ramByte, colorCell, BitVec.toNat_ofNat]

/-! ### What a snapshot depends on -/

theorem videoBase_congr {s t : State} (hreg : s.vic.vreg[0x18] = t.vic.vreg[0x18]) (hpra : s.ciaB.pra = t.ciaB.pra)
    (hddra : s.ciaB.ddra = t.ciaB.ddra) : videoBase s = videoBase t := by
  simp only [videoBase, vicBank, ciaPortA, hreg, hpra, hddra]

theorem snapshotCell_congr {s t : State} (hram : s.ram = t.ram) (hcolor : s.color = t.color)
    (hbase : videoBase s = videoBase t) (r c : Nat) : snapshotCell s r c = snapshotCell t r c := by
  rw [snapshotCell_eq, snapshotCell_eq, hram, hcolor, hbase]

/-- Settles O40: the bases and the cells in numbers, and a snapshot is equal where its cells and colors are. -/
theorem snapshotReadsRamAndColor : Obligations.SnapshotReadsRamAndColor := by
  refine ⟨fun s => ?_, fun s r c hr hc => ?_, fun s t hram hcolor h18 h20 h21 hpra hddra => ?_⟩
  · rw [videoBase_eq, charBase_eq, vicBank_eq]
    exact ⟨rfl, rfl⟩
  · refine ⟨?_, ?_, ?_, BitVec.toNat_setWidth .., BitVec.toNat_setWidth .., rfl⟩
    · rw [snapshot, List.length_map, List.length_range]
    · rw [snapshot_row s hr, Option.map_some, List.length_map, List.length_range]
    · rw [snapshot_cell s hr hc, snapshotCell_eq]
  · simp only [snapshot, snapshotCell_congr hram hcolor (videoBase_congr h18 hpra hddra), h20, h21]

end Sys2Proof.Machine
end

section
/-! SUPPORT. The CIAs: the keyboard scan, the two timers, the interrupt control and the register file (62_cia.md). -/

namespace Sys2Proof.Machine

/-! ### The keyboard -/

/-- The scan of some columns: a row bit is set when it was set before or a strobed one of them has it (R173). -/
theorem foldl_strobed_getLsbD (strobe : Byte) (keys : Vector Byte 8) (r : Nat) (cols : List (Fin 8)) (acc : Byte) :
    (cols.foldl (fun acc (c : Fin 8) => if strobe.getLsbD c.val then acc else acc ||| keys[c]) acc).getLsbD r = true ↔
      acc.getLsbD r = true ∨ ∃ k ∈ cols, strobe.getLsbD k.val = false ∧ keys[k].getLsbD r = true := by
  induction cols generalizing acc with
  | nil => simp
  | cons c cols ih =>
    simp only [List.foldl_cons, ih, List.mem_cons, exists_eq_or_imp]
    cases strobe.getLsbD c.val
    · simp only [Bool.false_eq_true, if_false, BitVec.getLsbD_or, Bool.or_eq_true, true_and, or_assoc]
    · simp only [if_true, Bool.true_eq_false, false_and, false_or]

theorem strobedKeys_getLsbD (strobe : Byte) (keys : Vector Byte 8) (r : Nat) :
    (strobedKeys strobe keys).getLsbD r = true ↔
      ∃ k : Fin 8, strobe.getLsbD k.val = false ∧ keys[k].getLsbD r = true := by
  have hall : ∀ k : Fin 8, k ∈ ([0, 1, 2, 3, 4, 5, 6, 7] : List (Fin 8)) := by decide
  rw [strobedKeys, foldl_strobed_getLsbD]
  simp only [BitVec.ofNat_eq_ofNat, BitVec.getLsbD_zero, Bool.false_eq_true, false_or, hall, true_and]

/-- A line of port A is low exactly when it is an output driven 0 (R169, R172). -/
theorem ciaPortA_getLsbD_eq_false_iff (c : Cia) {k : Nat} (hk : k < 8) :
    (ciaPortA c).getLsbD k = false ↔ c.pra.getLsbD k = false ∧ c.ddra.getLsbD k = true := by
  rw [ciaPortA_getLsbD c hk, Bool.or_eq_false_iff, Bool.not_eq_false']

/-- Settles O35: the keyboard byte is the complement of the scan, and the strobed columns are port A's low lines. -/
theorem keyboardRowsReadLow : Obligations.KeyboardRowsReadLow := by
  intro c keys r
  rw [keyboardPort, BitVec.getLsbD_not, decide_eq_true r.isLt, Bool.true_and, Bool.not_eq_false', strobedKeys_getLsbD]
  simp only [ciaPortA_getLsbD_eq_false_iff c (Fin.isLt _), and_assoc]

/-! ### The timers -/

theorem countsA_iff (c : Cia) : countsA c = true ↔ c.cra.getLsbD 0 = true ∧ c.cra.getLsbD 5 = false := by
  simp [countsA]

theorem countsB_iff (c : Cia) :
    countsB c = true ↔ c.crb.getLsbD 0 = true ∧ c.crb.getLsbD 5 = false ∧ c.crb.getLsbD 6 = false := by
  simp [countsB, and_assoc]

/-- Timer A's part of a tick touches its counter, its control register and the interrupt latch only (R177). -/
theorem tickTimerA_frame (n : Nat) (c : Cia) :
    tickTimerA n c = { c with
      taCnt := (tickTimerA n c).taCnt, cra := (tickTimerA n c).cra, icrLatch := (tickTimerA n c).icrLatch } := by
  unfold tickTimerA
  split
  · split <;> rfl
  · rfl

/-- Timer B's part of a tick touches its counter, its control register and the interrupt latch only (R177). -/
theorem tickTimerB_frame (n : Nat) (c : Cia) :
    tickTimerB n c = { c with
      tbCnt := (tickTimerB n c).tbCnt, crb := (tickTimerB n c).crb, icrLatch := (tickTimerB n c).icrLatch } := by
  unfold tickTimerB
  split
  · split <;> rfl
  · rfl

theorem ciaTick_frame (n : Nat) (c : Cia) :
    ciaTick n c = { c with
      taCnt := (ciaTick n c).taCnt, tbCnt := (ciaTick n c).tbCnt, cra := (ciaTick n c).cra, crb := (ciaTick n c).crb
      icrLatch := (ciaTick n c).icrLatch } := by
  rw [ciaTick, tickTimerB_frame, tickTimerA_frame]

/-! Each timer in its three cases: it does not count, it counts down, it underflows (R177). -/

section
variable {n : Nat} {c : Cia}

theorem tickTimerA_idle (h : ¬countsA c = true) : tickTimerA n c = c := if_neg h

theorem tickTimerA_countDown (h : countsA c = true) (hn : n ≤ c.taCnt.toNat) :
    tickTimerA n c = { c with taCnt := c.taCnt - BitVec.ofNat 16 n } := by
  rw [tickTimerA, if_pos h, if_neg (Nat.not_lt.2 hn)]

theorem tickTimerA_underflow (h : countsA c = true) (hn : c.taCnt.toNat < n) :
    tickTimerA n c = { c with taCnt := c.taLatch, icrLatch := c.icrLatch ||| 1, cra := stopOneShot c.cra } := by
  rw [tickTimerA, if_pos h, if_pos hn]

theorem tickTimerB_idle (h : ¬countsB c = true) : tickTimerB n c = c := if_neg h

theorem tickTimerB_countDown (h : countsB c = true) (hn : n ≤ c.tbCnt.toNat) :
    tickTimerB n c = { c with tbCnt := c.tbCnt - BitVec.ofNat 16 n } := by
  rw [tickTimerB, if_pos h, if_neg (Nat.not_lt.2 hn)]

theorem tickTimerB_underflow (h : countsB c = true) (hn : c.tbCnt.toNat < n) :
    tickTimerB n c = { c with tbCnt := c.tbLatch, icrLatch := c.icrLatch ||| 2, crb := stopOneShot c.crb } := by
  rw [tickTimerB, if_pos h, if_pos hn]

end

/-- Timer A latches bit 0 only (R177). -/
theorem tickTimerA_icrLatch_getLsbD (n : Nat) (c : Cia) {k : Nat} (hk : k ≠ 0) :
    (tickTimerA n c).icrLatch.getLsbD k = c.icrLatch.getLsbD k := by
  unfold tickTimerA
  split
  · split
    · simp [BitVec.getLsbD_one, hk]
    · rfl
  · rfl

/-- Timer B latches bit 1 only (R177). -/
theorem tickTimerB_icrLatch_getLsbD (n : Nat) (c : Cia) {k : Nat} (hk : k ≠ 1) :
    (tickTimerB n c).icrLatch.getLsbD k = c.icrLatch.getLsbD k := by
  have hbit : (2 : BitVec 5).getLsbD k = false := by
    rw [show (2 : BitVec 5) = BitVec.twoPow 5 1 from rfl, BitVec.getLsbD_twoPow]
    simp [hk.symm]
  unfold tickTimerB
  split
  · split
    · rw [BitVec.getLsbD_or, hbit, Bool.or_false]
    · rfl
  · rfl

/-- In a tick timer A does what its own part does: timer B leaves it and its latch bit alone. -/
theorem ciaTick_timerA (n : Nat) (c : Cia) :
    (ciaTick n c).taCnt = (tickTimerA n c).taCnt ∧ (ciaTick n c).cra = (tickTimerA n c).cra ∧
      (ciaTick n c).icrLatch.getLsbD 0 = (tickTimerA n c).icrLatch.getLsbD 0 := by
  refine ⟨?_, ?_, tickTimerB_icrLatch_getLsbD _ _ (by decide)⟩ <;> rw [ciaTick, tickTimerB_frame]

/-- In a tick timer B does what its own part does, whatever timer A did before it. -/
theorem ciaTick_timerB (n : Nat) (c : Cia) :
    (ciaTick n c).tbCnt = (tickTimerB n c).tbCnt ∧ (ciaTick n c).crb = (tickTimerB n c).crb ∧
      (ciaTick n c).icrLatch.getLsbD 1 = (tickTimerB n c).icrLatch.getLsbD 1 := by
  have hbit : (tickTimerA n c).icrLatch.getLsbD 1 = c.icrLatch.getLsbD 1 := tickTimerA_icrLatch_getLsbD n c (by decide)
  have hcounts : countsB (tickTimerA n c) = countsB c := by rw [countsB, tickTimerA_frame, countsB]
  have hcnt : (tickTimerA n c).tbCnt = c.tbCnt := by rw [tickTimerA_frame]
  have hlatch : (tickTimerA n c).tbLatch = c.tbLatch := by rw [tickTimerA_frame]
  have hcrb : (tickTimerA n c).crb = c.crb := by rw [tickTimerA_frame]
  unfold ciaTick
  by_cases h : countsB c = true
  · by_cases hn : n ≤ c.tbCnt.toNat
    · rw [tickTimerB_countDown h hn, tickTimerB_countDown (hcounts.trans h) (hcnt ▸ hn)]
      exact ⟨by rw [hcnt], hcrb, hbit⟩
    · rw [tickTimerB_underflow h (by omega), tickTimerB_underflow (hcounts.trans h) (by rw [hcnt]; omega)]
      exact ⟨hlatch, by rw [hcrb], by rw [BitVec.getLsbD_or, hbit, BitVec.getLsbD_or]⟩
  · rw [tickTimerB_idle h, tickTimerB_idle (hcounts ▸ h)]
    exact ⟨hcnt, hcrb, hbit⟩

/-- An underflow clears the start bit of a one-shot timer and no other bit (R177). -/
theorem stopOneShot_getLsbD (control : Byte) {k : Nat} (hk : k < 8) :
    (stopOneShot control).getLsbD k = (control.getLsbD k && !(decide (k = 0) && control.getLsbD 3)) := by
  have hmask : ∀ k < 8, (0xFE : Byte).getLsbD k = !decide (k = 0) := by decide
  unfold stopOneShot
  cases control.getLsbD 3
  · rw [if_neg Bool.false_ne_true, Bool.and_false, Bool.not_false, Bool.and_true]
  · rw [if_pos rfl, BitVec.getLsbD_and, hmask k hk, Bool.and_true]

/-- A counter that is not exceeded goes down by the cycles as numbers. -/
theorem counter_sub_toNat {cnt : Word} {n : Nat} (h : n ≤ cnt.toNat) : (cnt - BitVec.ofNat 16 n).toNat = cnt.toNat - n := by
  have hlt : n < 2 ^ 16 := lt_of_le_of_lt h cnt.isLt
  rw [BitVec.toNat_sub_of_le (by rwa [BitVec.le_def, BitVec.toNat_ofNat, Nat.mod_eq_of_lt hlt]), BitVec.toNat_ofNat,
    Nat.mod_eq_of_lt hlt]

/-- Settles O36: each timer is its own part of the tick, in each of its three cases. -/
theorem timersUnderflowPastZero : Obligations.TimersUnderflowPastZero := by
  intro n c t countsTA countsTB
  have hA : countsTA ↔ countsA c = true := (countsA_iff c).symm
  have hB : countsTB ↔ countsB c = true := (countsB_iff c).symm
  obtain ⟨hAcnt, hAcr, hAbit⟩ := ciaTick_timerA n c
  obtain ⟨hBcnt, hBcr, hBbit⟩ := ciaTick_timerB n c
  rw [hA, hB, hAcnt, hAcr, hAbit, hBcnt, hBcr, hBbit]
  refine ⟨?_, fun h => ?_, fun h hn => ?_, fun h hn => ?_, fun h => ?_, fun h hn => ?_, fun h hn => ?_, fun k hk => ?_⟩
  · rw [← hAcnt, ← hAcr, ← hBcnt, ← hBcr]
    exact ciaTick_frame n c
  · rw [tickTimerA_idle h]
    exact ⟨rfl, rfl, rfl⟩
  · rw [tickTimerA_countDown h hn]
    exact ⟨counter_sub_toNat hn, rfl, rfl⟩
  · rw [tickTimerA_underflow h hn]
    exact ⟨rfl, by simp, fun k hk => stopOneShot_getLsbD _ hk⟩
  · rw [tickTimerB_idle h]
    exact ⟨rfl, rfl, rfl⟩
  · rw [tickTimerB_countDown h hn]
    exact ⟨counter_sub_toNat hn, rfl, rfl⟩
  · rw [tickTimerB_underflow h hn]
    exact ⟨rfl, by simp, fun k hk => stopOneShot_getLsbD _ hk⟩
  · exact (tickTimerB_icrLatch_getLsbD _ _ (by omega)).trans (tickTimerA_icrLatch_getLsbD _ _ (by omega))

/-- With timer B at rest a tick is timer A's part. -/
theorem ciaTick_of_timerB_idle {n : Nat} {c : Cia} (h : countsB c = false) : ciaTick n c = tickTimerA n c := by
  refine tickTimerB_idle ?_
  rw [countsB, tickTimerA_frame]
  simpa [countsB] using h

/-- One cycle of a running timer A whose counter is not 0. -/
theorem ciaTick_one_countDown {c : Cia} (hA : countsA c = true) (hB : countsB c = false) {m : Nat} (hm : m + 1 < 65536) :
    ciaTick 1 { c with taCnt := BitVec.ofNat 16 (m + 1) } = { c with taCnt := BitVec.ofNat 16 m } := by
  have hpos : 1 ≤ (BitVec.ofNat 16 (m + 1)).toNat := by
    rw [BitVec.toNat_ofNat]
    omega
  have hsub : BitVec.ofNat 16 (m + 1) - BitVec.ofNat 16 1 = BitVec.ofNat 16 m := by bv_omega
  rw [ciaTick_of_timerB_idle (c := { c with taCnt := BitVec.ofNat 16 (m + 1) }) hB,
    tickTimerA_countDown (c := { c with taCnt := BitVec.ofNat 16 (m + 1) }) hA hpos, hsub]

/-- One cycle of a running continuous timer A whose counter is 0: the timer stays running. -/
theorem ciaTick_one_reload {c : Cia} (hA : countsA c = true) (hcont : c.cra.getLsbD 3 = false) (hB : countsB c = false) :
    ciaTick 1 { c with taCnt := 0 } = { c with taCnt := c.taLatch, icrLatch := c.icrLatch ||| 1 } := by
  have hstop : stopOneShot c.cra = c.cra := by rw [stopOneShot, hcont, if_neg Bool.false_ne_true]
  rw [ciaTick_of_timerB_idle (c := { c with taCnt := 0 }) hB,
    tickTimerA_underflow (c := { c with taCnt := 0 }) hA Nat.zero_lt_one, hstop]

/-- Settles O37: the counter falls by one with each tick down to 0, and the next tick reloads it. -/
theorem timerPeriodIsLatchPlusOne : Obligations.TimerPeriodIsLatchPlusOne := by
  intro c hA hcont hB hcnt
  have hload : { c with taCnt := c.taLatch } = c := congrArg (fun w => { c with taCnt := w }) hcnt.symm
  have hdown : ∀ k : Nat, k ≤ c.taLatch.toNat →
      (ciaTick 1)^[k] c = { c with taCnt := BitVec.ofNat 16 (c.taLatch.toNat - k) } := by
    intro k hk
    induction k with
    | zero => rw [Function.iterate_zero_apply, Nat.sub_zero, BitVec.ofNat_toNat, BitVec.setWidth_eq, hload]
    | succ k ih =>
      have hlt := c.taLatch.isLt
      have hsub : c.taLatch.toNat - k = c.taLatch.toNat - (k + 1) + 1 := by omega
      rw [Function.iterate_succ_apply', ih (by omega), hsub, ciaTick_one_countDown hA hB (by omega)]
  refine ⟨hdown, ?_⟩
  rw [Function.iterate_succ_apply', hdown _ le_rfl, Nat.sub_self]
  refine (ciaTick_one_reload hA hcont hB).trans ?_
  rw [← hcnt]

/-! ### The interrupt control -/

/-- The line is high when a latched bit is unmasked (R178). -/
theorem ciaLine_iff (c : Cia) :
    ciaLine c = true ↔ ∃ k : Nat, k < 5 ∧ c.icrLatch.getLsbD k = true ∧ c.icrMask.getLsbD k = true := by
  rw [ciaLine, decide_eq_true_iff, and_ne_zero_iff_common_bit]

theorem ciaLine_of_latch_zero {c : Cia} (h : c.icrLatch = 0) : ciaLine c = false := by
  simp [ciaLine, h]

theorem icrValue_toNat (c : Cia) : (icrValue c).toNat = c.icrLatch.toNat + (if ciaLine c then 128 else 0) := by
  have hor := Nat.shiftLeft_add_eq_or_of_lt (i := 7) (show c.icrLatch.toNat < 128 by omega) 1
  have hlt : c.icrLatch.toNat % 256 = c.icrLatch.toNat := by omega
  rw [icrValue, BitVec.toNat_or, BitVec.toNat_setWidth, hlt, Nat.lor_comm]
  cases ciaLine c
  · exact Nat.zero_or _
  · exact hor.symm.trans (Nat.add_comm ..)

theorem icrValue_of_latch_zero {c : Cia} (h : c.icrLatch = 0) : icrValue c = 0 := by
  rw [icrValue, ciaLine_of_latch_zero h, h]
  rfl

/-- A named mask bit becomes bit 7, every other one stays (R180). -/
theorem icrMaskWrite_getLsbD (mask : BitVec 5) (v : Byte) {k : Nat} (hk : k < 5) :
    (icrMaskWrite mask v).getLsbD k = if v.getLsbD k then v.getLsbD 7 else mask.getLsbD k := by
  have hbit : (v.setWidth 5).getLsbD k = v.getLsbD k := by
    rw [BitVec.getLsbD_setWidth, decide_eq_true hk, Bool.true_and]
  rw [icrMaskWrite]
  cases v.getLsbD 7
  · rw [if_neg Bool.false_ne_true, BitVec.getLsbD_and, BitVec.getLsbD_not, hbit, decide_eq_true hk, Bool.true_and]
    cases v.getLsbD k
    · exact Bool.and_true _
    · exact Bool.and_false _
  · rw [if_pos rfl, BitVec.getLsbD_or, hbit]
    cases v.getLsbD k
    · exact Bool.or_false _
    · exact Bool.or_true _

/-- Settles O38: the line, the read and the write of the ICR, bit by bit. -/
theorem interruptControlRegister : Obligations.InterruptControlRegister := by
  intro p c v r t
  exact ⟨ciaLine_iff c, icrValue_toNat c, rfl, ciaLine_of_latch_zero (c := r.2) rfl, icrValue_of_latch_zero (c := r.2) rfl,
    rfl, fun k hk => icrMaskWrite_getLsbD _ _ hk⟩

/-! ### Writes of the timer registers -/

theorem latchHigh_toNat (latch : Word) (v : Byte) : (latchHigh latch v).toNat = v.toNat * 256 + latch.toNat % 256 := by
  have hword : latchHigh latch v = mkWord (loByte latch) v := rfl
  rw [hword, mkWord_toNat, loByte_toNat]
  omega

theorem latchLow_toNat (latch : Word) (v : Byte) : (latchLow latch v).toNat = latch.toNat / 256 * 256 + v.toNat := by
  have hword : latchLow latch v = mkWord v (hiByte latch) := rfl
  rw [hword, mkWord_toNat, hiByte_toNat]
  omega

/-- Bit 4 of a control write is a strobe and is not stored (R175). -/
theorem controlStored_getLsbD (v : Byte) {k : Nat} (hk : k < 8) :
    (v &&& 0xEF).getLsbD k = (v.getLsbD k && !decide (k = 4)) := by
  have hmask : ∀ k < 8, (0xEF : Byte).getLsbD k = !decide (k = 4) := by decide
  rw [BitVec.getLsbD_and, hmask k hk]

/-- Settles O39: the four writes by their equations, and a timer on another input is idle. -/
theorem timerRegisterWrites : Obligations.TimerRegisterWrites := by
  intro p c v
  refine ⟨⟨latchHigh_toNat _ _, rfl, rfl⟩, ⟨latchHigh_toNat _ _, rfl, rfl⟩,
    ⟨fun k hk => controlStored_getLsbD v hk, rfl, rfl, rfl⟩, ⟨fun k hk => controlStored_getLsbD v hk, rfl, rfl, rfl⟩,
    fun n _ _ h5 => ?_, fun n _ _ h56 => ?_⟩
  · rw [(ciaTick_timerA n c).1, tickTimerA_idle fun h => absurd ((countsA_iff c).1 h).2 (by rw [h5]; decide)]
  · have hidle : ¬countsB c = true := by
      rw [countsB_iff]
      rintro ⟨-, h5, h6⟩
      rw [h5, h6] at h56
      exact absurd h56 (by decide)
    rw [(ciaTick_timerB n c).1, tickTimerB_idle hidle]

/-! ### The register file -/

/-- A pin reads its data bit when it is an output, and 1 when it is an input (R172). -/
theorem pin_getLsbD (data ddr : Byte) {k : Nat} (hk : k < 8) :
    (data ||| ~~~ddr).getLsbD k = if ddr.getLsbD k then data.getLsbD k else true := by
  rw [BitVec.getLsbD_or, BitVec.getLsbD_not, decide_eq_true hk, Bool.true_and]
  cases ddr.getLsbD k
  · exact Bool.or_true _
  · exact Bool.or_false _

/-- The four TOD registers are storage (R182). -/
theorem ciaWrite_tod (c : Cia) (j : Fin 4) (v : Byte) :
    ciaWrite c (BitVec.ofNat 4 (8 + j.val)) v = { c with tod := c.tod.set j.val v } := by
  fin_cases j <;> rfl

/-- The register index is four bits wide, so it repeats every 16 bytes (R44). -/
theorem ofNat_registerIndex (n : Nat) : BitVec.ofNat 4 (n % 16) = BitVec.ofNat 4 n := by
  simp [BitVec.toNat_eq]

/-- Settles O60: each register's read and write is its equation, a tick's frame and the bus dispatch do the rest. -/
theorem ciaRegisterFile : Obligations.CiaRegisterFile := by
  intro portB c v reads pin
  refine ⟨fun k hk => ⟨pin_getLsbD _ _ hk, pin_getLsbD _ _ hk⟩, rfl, rfl, rfl, loByte_toNat _, hiByte_toNat _,
    loByte_toNat _, hiByte_toNat _, rfl, rfl, rfl, rfl, rfl, rfl, rfl, fun i hi => ?_, rfl, rfl, rfl, rfl,
    ⟨latchLow_toNat _ _, rfl⟩, ⟨latchLow_toNat _ _, rfl⟩, fun j => ?_, rfl, fun i => ciaWrite_icrLatch c i v, fun n => ?_,
    fun s a hio => ⟨fun hA => ?_, fun hB => ?_⟩⟩
  · rw [ciaRead_state, if_neg hi]
  · rw [ciaWrite_tod]
    refine ⟨rfl, fun k => ?_⟩
    simp [Vector.getElem_set, Fin.ext_iff, eq_comm]
  · rw [ciaTick_frame]
    exact ⟨rfl, rfl, rfl, rfl, rfl, rfl⟩
  · rw [memRead_io_region hio, ioRead_ciaA ((ioDevice_ciaA_iff hio).2 hA), ofNat_registerIndex]
  · rw [memRead_io_region hio, ioRead_ciaB ((ioDevice_ciaB_iff hio).2 hB), ofNat_registerIndex]

end Sys2Proof.Machine
end

section
/-! SUPPORT. Host events, and the machine that is paused or asked to shut down (63_machine_loop.md sections 2 and 3, R187 to
R191). -/

namespace Sys2Proof.Machine

/-! ### One event -/

/-- A matrix event writes one column of the keys (R190). -/
theorem applyEvent_matrix (s : State) (c r : Fin 8) (down : Bool) :
    applyEvent s ⟨.matrix c r, down⟩ = { s with keys := s.keys.set c.val (setKeyRow s.keys[c] r down) } := rfl

/-- RESTORE pulses NMI when it goes down and does nothing when it goes up (R191). -/
theorem applyEvent_restore (s : State) (down : Bool) :
    applyEvent s ⟨.restore, down⟩ = if down then { s with nmiPending := true } else s := rfl

/-- The column byte of a matrix event has the event's row as it says and every other row as before (R190). -/
theorem setKeyRow_getLsbD (col : Byte) (r r' : Fin 8) (down : Bool) :
    (setKeyRow col r down).getLsbD r'.val = if r' = r then down else col.getLsbD r'.val := by
  have hbit : ∀ r r' : Fin 8, (1#8 <<< r.val).getLsbD r'.val = decide (r' = r) := by decide
  unfold setKeyRow
  cases down
  · rw [if_neg Bool.false_ne_true, BitVec.getLsbD_and, BitVec.getLsbD_not, hbit, decide_eq_true r'.isLt]
    by_cases h : r' = r <;> simp [h]
  · rw [if_pos rfl, BitVec.getLsbD_or, hbit]
    by_cases h : r' = r <;> simp [h]

/-- Settles O15: the event's own column is `setKeyRow`, every other column is untouched. -/
theorem keyEventsChangeOneKey : Obligations.KeyEventsChangeOneKey := by
  intro s c r down
  refine ⟨fun c' r' => ?_, rfl, rfl, rfl⟩
  by_cases hc : c' = c
  · subst hc
    have hcol : (applyEvent s ⟨.matrix c' r, down⟩).keys[c'] = setKeyRow s.keys[c'] r down := Vector.getElem_set_self _
    simp only [hcol, setKeyRow_getLsbD, true_and]
  · have hcol : (applyEvent s ⟨.matrix c r, down⟩).keys[c'] = s.keys[c'] :=
      Vector.getElem_set_ne c.isLt c'.isLt fun h => hc (Fin.ext h.symm)
    simp only [hcol, hc, false_and, if_false]

/-! ### The waiting events -/

/-- Among events only a RESTORE press raises NMI (R191). -/
theorem applyEvents_nmiPending_iff (es : List KeyEvent) (s : State) :
    (applyEvents es s).nmiPending = true ↔ s.nmiPending = true ∨ (⟨.restore, true⟩ : KeyEvent) ∈ es := by
  induction es generalizing s with
  | nil => exact (or_iff_left List.not_mem_nil).symm
  | cons e es ih =>
    have hcons : applyEvents (e :: es) s = applyEvents es (applyEvent s e) := rfl
    rw [hcons, ih, List.mem_cons, ← or_assoc]
    refine or_congr_left ?_
    rcases e with ⟨⟨c, r⟩ | -, _ | _⟩
    · simp [applyEvent_matrix]
    · simp [applyEvent_matrix]
    · simp [applyEvent_restore]
    · simp [applyEvent_restore]

theorem takeEvents_nmiPending_iff (s : State) :
    (takeEvents s).nmiPending = true ↔ s.nmiPending = true ∨ (⟨.restore, true⟩ : KeyEvent) ∈ s.events :=
  applyEvents_nmiPending_iff s.events { s with events := [] }

/-- Between frames the iteration begins once the events are applied and the frame is open (R186). -/
theorem atIteration_closed {s : State} (h : s.frameOpen = false) : atIteration s = openFrame (takeEvents s) := by
  simp [atIteration, h]

/-! ### Shutdown and pause -/

theorem step_shutdown {s : State} (hh : s.halted = false) (hf : s.fault = none) (hs : s.shutdown = true)
    (hrun : s.frameOpen = true ∨ s.paused = false) : step s = .fault .shutdownExit := by
  rcases step_cases s with ⟨h, -⟩ | ⟨-, -, ho, hp, -⟩ | ⟨-, -, -, -, e⟩ | ⟨⟨-, -, h, -⟩, -⟩
  · simp [hh, hf] at h
  · simp [ho, hp] at hrun
  · exact e
  · simp [hs] at h

/-- A paused frame is one step, which applies the waiting events (R187). -/
theorem step_paused {s : State} (hh : s.halted = false) (hf : s.fault = none) (ho : s.frameOpen = false)
    (hp : s.paused = true) : step s = .next (takeEvents s) := by
  simp [step, loopStep, hh, hf, ho, hp]

/-- A call of `Frame` on the waiting events starts as a step between frames does. -/
theorem frame_eq (s : State) :
    frame s.events { s with events := [] } =
      if s.halted then .alreadyHalted (takeEvents s)
      else if s.paused then .emitted (snapshot (takeEvents s)) (takeEvents s)
      else frameLoop Config.cycleBudget (openFrame (takeEvents s)) := by
  have htake : applyEvents s.events { s with events := [] } = takeEvents s := rfl
  have hhalted : (takeEvents s).halted = s.halted := by rw [takeEvents_frame]
  have hpaused : (takeEvents s).paused = s.paused := by rw [takeEvents_frame]
  simp only [frame, htake, hhalted, hpaused]

/-- Settles O14: the shutdown step, and the paused step with what the events leave of NMI. -/
theorem shutdownAndPauseRunNoInstruction : Obligations.ShutdownAndPauseRunNoInstruction := by
  intro s hh hf
  refine ⟨step_shutdown hh hf, fun ho hp => ⟨takeEvents s, step_paused hh hf ho hp, takeEvents_frame s,
    takeEvents_nmiPending_iff s, fun hn => ?_, ?_⟩⟩
  · have hfault : (setPaused false (takeEvents s)).fault = none := by
      rw [takeEvents_frame]
      exact hf
    exact cpuStep_of_nmiPending hfault hn
  · rw [frame_eq, hh, hp]
    rfl

end Sys2Proof.Machine
end

section
/-! SUPPORT. The iteration: the instruction it runs, its ticks and samples, and what raises NMI (60_exceptions.md section 1,
63_machine_loop.md section 1, R183 to R185). -/

namespace Sys2Proof.Machine

/-! ### The fetched instruction -/

/-- The fetch finds the instruction that the bytes at PC decode to, and stops after that instruction's own bytes (R57,
R58). -/
theorem fetch_of_decode {u : State} {i : Instr} {rest : List Byte} :
    let b0 := memRead u u.pc
    let b1 := memRead b0.2 (u.pc + 1)
    let b2 := memRead b1.2 (u.pc + 2)
    decode [b0.1, b1.1, b2.1] = some (i, rest) →
    fetch u = .instr i (if rest.length = 2 then b0.2 else if rest.length = 1 then b1.2 else b2.2) := by
  intro b0 b1 b2 h
  obtain ⟨op, ⟨hsh, hbs⟩ | ⟨k, b, hsh, rfl, hbs⟩ | ⟨k, w, hsh, rfl, hbs⟩⟩ := decode_cases h
  · obtain ⟨rfl, rfl⟩ := List.cons.inj hbs
    exact fetch_f1 hsh
  · simp only [List.cons.injEq] at hbs
    obtain ⟨rfl, rfl, rfl⟩ := hbs
    exact fetch_f2 hsh
  · simp only [bytes3, List.cons_append, List.nil_append, List.cons.injEq] at hbs
    obtain ⟨rfl, hlo, hhi, rfl⟩ := hbs
    rw [← mkWord_lo_hi w, ← hlo, ← hhi]
    exact fetch_f3 hsh

/-- Settles O5: the running step is the CPU step at the iteration's start, which executes the fetched instruction. -/
theorem stepRunsTheDecodedInstruction : Obligations.StepRunsTheDecodedInstruction := by
  intro s i rest hr hn u b0 b1 b2 hd
  have hf : u.fault = none := by
    have hrun := hr.2.1
    simp only [u]
    rw [atIteration_frame]
    exact hrun
  rw [step_runnable hr, cpuStep_instr hf hn (fetch_of_decode hd)]

/-! ### Ticks and samples -/

/-- An iteration that answers a next state is a CPU step that does, and what follows it (R183). -/
theorem iterate_next {s t : State} (h : iterate s = .next t) : ∃ u, cpuStep s = .next u ∧ t = afterStep u := by
  unfold iterate at h
  cases hc : cpuStep s with
  | next u =>
    rw [hc] at h
    exact ⟨u, rfl, (Host.Outcome.next.inj h).symm⟩
  | fault r => simp [hc, onNext] at h
  | refused r => simp [hc, onNext] at h

/-- Without a recorded fault a CPU step answers a next state (R138). -/
theorem cpuStep_next {s : State} (h : s.fault = none) : ∃ u, cpuStep s = .next u := by
  rcases cpuStep_cases h with ⟨-, e⟩ | ⟨-, -, -, e⟩ | ⟨-, _, _, -, e⟩ | ⟨-, _, _, _, -, -, e⟩ <;> exact ⟨_, e⟩

/-- What follows the CPU step records no fault and clears none (R189). -/
theorem afterStep_fault (u : State) : (afterStep u).fault = u.fault := by
  unfold afterStep
  split <;> rfl

/-- An iteration whose CPU step is not fatal ends with the ticks and the samples (R183). -/
theorem iterate_running {s u : State} (h : cpuStep s = .next u) (hf : u.fault = none) :
    iterate s = .next (sampleLines (tickAll u)) := by
  rw [iterate, h, onNext, afterStep_running hf]

/-- NMI is pending after a sample when it was before, or when CIA-B's line has risen (R185). -/
theorem sampleLines_nmiPending_iff (s : State) :
    (sampleLines s).nmiPending = true ↔ s.nmiPending = true ∨ (ciaLine s.ciaB = true ∧ s.nmiLinePrev = false) := by
  simp [sampleLines]

/-- Settles O12: the ticks and the samples as they are defined, with the NMI edge as an equivalence. -/
theorem iterationTicksThenSamples : Obligations.IterationTicksThenSamples := fun _ u h hf =>
  ⟨_, iterate_running h hf, rfl, rfl, rfl, rfl, rfl, rfl, sampleLines_nmiPending_iff (tickAll u), rfl, rfl⟩

/-! ### The NMI edge -/

/-- The next state of an instruction keeps every property that the CPU keeps. -/
theorem Stable.exec_next {P : State → Prop} (h : Stable P) {i : Instr} {s t : State} (hs : P s) (ht : exec i s = .next t) :
    P t := by
  obtain ⟨u, hu, hP⟩ := exec_stable h i hs
  rw [ht] at hu
  exact Host.Outcome.next.inj hu ▸ hP

/-- `t` has no NMI pending and the line sample of `s`. -/
def NoNmiSince (s t : State) : Prop := t.nmiPending = false ∧ t.nmiLinePrev = s.nmiLinePrev

theorem noNmiSince_stable (s : State) : Stable (NoNmiSince s) where
  read u a h := by simpa [NoNmiSince] using h
  write u a v h := by simpa [NoNmiSince] using h
  regs _ _ _ _ _ _ _ _ h := h

/-- No CPU step raises NMI or samples its line (R25). -/
theorem NoNmiSince.cpuStep {s u : State} (hn : s.nmiPending = false) (h : cpuStep s = .next u) : NoNmiSince s u := by
  have hs : NoNmiSince s s := ⟨hn, rfl⟩
  have hstable := noNmiSince_stable s
  cases hf : s.fault with
  | some f => simp [cpuStep_of_fault, hf] at h
  | none =>
    rcases cpuStep_cases hf with ⟨hnmi, -⟩ | ⟨-, -, -, e⟩ | ⟨-, op, v, hv, e⟩ | ⟨-, i, v, r, hv, hi, e⟩
    · simp [hn] at hnmi
    all_goals
      rw [e] at h
      cases h
    · exact hstable.interruptEntry irqVector (s := { s with irqPending := false }) hs
    · exact (hstable.fetch hs).1 op v hv
    · exact hstable.exec_next ((hstable.fetch hs).2 i v hv) hi

/-- Settles O13: the CPU step raises no NMI, so only the sample of a rising line can. -/
theorem nmiPendingNeedsAnEdge : Obligations.NmiPendingNeedsAnEdge := by
  intro s t h htf hn ht
  obtain ⟨u, hu, rfl⟩ := iterate_next h
  obtain ⟨hun, hprev⟩ := NoNmiSince.cpuStep hn hu
  rw [afterStep_fault] at htf
  rw [afterStep_running htf] at ht ⊢
  obtain hpend | ⟨hline, hlow⟩ := (sampleLines_nmiPending_iff (tickAll u)).1 ht
  · exact absurd (hpend.symm.trans hun) (by decide)
  · exact ⟨hprev ▸ hlow, hline⟩

end Sys2Proof.Machine
end

section
/-! SUPPORT. The cycle counts (70_reset_and_hazards.md section 4, R207 to R210). -/

namespace Sys2Proof.Machine

/-- The count that the step left in the state is 2 to 7. -/
def CountInBounds (t : State) : Prop := 2 ≤ t.stepCycles ∧ t.stepCycles ≤ 7

/-! ### The shapes -/

section
variable {n : Nat}

theorem countInBounds_finishAt (s : State) (pc : Word) (hlo : 2 ≤ n) (hhi : n ≤ 7) : CountInBounds (finishAt s pc n) :=
  ⟨hlo, hhi⟩

/-- A crossed page costs one cycle more than the base count (R208). -/
theorem countInBounds_readOp (o : Operand) (f : Byte → State → State) (s : State) (hlo : 2 ≤ n) (hhi : n ≤ 6) :
    CountInBounds (readOp o n f s) := by
  have hcross : crossCycle (loadOperand o s).crossed ≤ 1 := by
    cases (loadOperand o s).crossed
    · exact Nat.zero_le 1
    · exact le_rfl
  exact countInBounds_finishAt _ _ (Nat.le_add_right_of_le hlo) (Nat.add_le_add hhi hcross)

theorem countInBounds_storeOp (m : MemMode) (v : Byte) (s : State) (hlo : 2 ≤ n) (hhi : n ≤ 7) :
    CountInBounds (storeOp m n v s) := countInBounds_finishAt _ _ hlo hhi

theorem countInBounds_modifyOp (m : MemMode) (f : Byte → Flags → Byte × Flags) (s : State) (hlo : 2 ≤ n) (hhi : n ≤ 7) :
    CountInBounds (modifyOp m n f s) := countInBounds_finishAt _ _ hlo hhi

theorem countInBounds_impliedOp (f : State → State) (s : State) (hlo : 2 ≤ n) (hhi : n ≤ 7) :
    CountInBounds (impliedOp n f s) := countInBounds_finishAt _ _ hlo hhi

end

/-- A branch costs 2, 3 or 4 cycles (R209). -/
theorem countInBounds_branchOp (off : Int) (c : Bool) (s : State) : CountInBounds (branchOp off c s) := by
  unfold branchOp
  split
  · refine countInBounds_finishAt _ _ ?_ ?_ <;> split <;> decide
  · exact countInBounds_finishAt _ _ (by decide) (by decide)

theorem countInBounds_interruptEntry (vec : Word) (s : State) : CountInBounds (interruptEntry vec s) :=
  countInBounds_finishAt _ _ (by decide) (by decide)

/-! ### Instructions and CPU steps -/

/-- Every instruction costs 2 to 7 cycles, by its shape (R207). -/
theorem exec_countInBounds (i : Instr) (s : State) : ∃ t, exec i s = .next t ∧ CountInBounds t := by
  cases i with
  | tax | tay | txa | tya | tsx | txs | pha | php | pla | plp | inx | iny | dex | dey | aslAcc | lsrAcc | rolAcc | rorAcc
  | clc | sec | cld | sed | cli | sei | clv | nop =>
    exact ⟨_, rfl, countInBounds_impliedOp _ _ (by decide) (by decide)⟩
  | bpl | bmi | bvc | bvs | bcc | bcs | bne | beq => exact ⟨_, rfl, countInBounds_branchOp _ _ _⟩
  | jmpAbs | jmpInd | jsrAbs | rts | rti | brk => exact ⟨_, rfl, countInBounds_finishAt _ _ (by decide) (by decide)⟩
  | staZp | staZpX | staAbs | staAbsX | staAbsY | staIndX | staIndY | stxZp | stxZpY | stxAbs | styZp | styZpX | styAbs =>
    exact ⟨_, rfl, countInBounds_storeOp _ _ _ (by decide) (by decide)⟩
  | incZp | incZpX | incAbs | incAbsX | decZp | decZpX | decAbs | decAbsX | aslZp | aslZpX | aslAbs | aslAbsX | lsrZp
  | lsrZpX | lsrAbs | lsrAbsX | rolZp | rolZpX | rolAbs | rolAbsX | rorZp | rorZpX | rorAbs | rorAbsX =>
    exact ⟨_, rfl, countInBounds_modifyOp _ _ _ (by decide) (by decide)⟩
  | _ => exact ⟨_, rfl, countInBounds_readOp _ _ _ (by decide) (by decide)⟩

theorem countInBounds_of_exec {i : Instr} {s t : State} (h : exec i s = .next t) : CountInBounds t := by
  obtain ⟨u, hu, hcount⟩ := exec_countInBounds i s
  rw [h] at hu
  exact Host.Outcome.next.inj hu ▸ hcount

/-- A CPU step that records no fault is an instruction or an entry. -/
theorem countInBounds_of_cpuStep {s t : State} (h : cpuStep s = .next t) (ht : t.fault = none) : CountInBounds t := by
  cases hf : s.fault with
  | some f => simp [cpuStep_of_fault, hf] at h
  | none =>
    rcases cpuStep_cases hf with ⟨-, e⟩ | ⟨-, -, -, e⟩ | ⟨-, op, u, -, e⟩ | ⟨-, i, u, r, -, hi, e⟩
    all_goals
      rw [e] at h
      cases h
    · exact countInBounds_interruptEntry _ _
    · exact countInBounds_interruptEntry _ _
    · cases ht
    · exact countInBounds_of_exec hi

/-- Settles O18: the bounds by the instruction's shape; BRK, entry and `INC` absolute,X give their count as 7. -/
theorem cycleCountBounds : Obligations.CycleCountBounds :=
  ⟨fun _ _ _ => countInBounds_of_exec, fun _ _ => countInBounds_of_cpuStep, fun s vec => interruptEntry_stepCycles vec s,
    fun _ => ⟨_, rfl, rfl⟩, fun _ _ => ⟨_, rfl, rfl⟩⟩

end Sys2Proof.Machine
end

section
/-! SUPPORT. Reset and start-up (70_reset_and_hazards.md section 1, R193, R197, R198). -/

namespace Sys2Proof.Machine

/-- Settles O58: the vector lies above $E000, where a bus read changes nothing. -/
theorem resetProcedure : Obligations.ResetProcedure := by
  intro s
  have hvec : read16 s resetVector = (mkWord (memRead s 0xFFFC).1 (memRead s 0xFFFD).1, s) :=
    read16_high (by decide) (by decide)
  rw [cpuReset, hvec]

theorem lengthsOk_iff (i : PowerOn) :
    i.lengthsOk = true ↔ i.romBasic.length = 8192 ∧ i.romKernal.length = 8192 ∧ i.romChar.length = 4096 := by
  simp [PowerOn.lengthsOk, and_assoc]

/-- A ROM image reads as the bytes it was made from. -/
theorem getElem?_eq_read_ofBytes (fill : Byte) {vs : List Byte} {k : Nat} (h : k < vs.length) :
    vs[k]? = some (Memory.read fill (Memory.ofBytes fill 0 vs) k) := by
  have hread := Memory.read_ofBytes (fill := fill) vs 0 k h
  rw [Nat.zero_add] at hread
  rw [List.getElem?_eq_getElem h, hread]

/-- After power-on the port's bits are inputs, so the configuration is 7 (R37, R39, R198). -/
theorem powerOn_bankCfg (i : PowerOn) : bankCfg (powerOn i) = 7 := (by decide : ((0 : Byte) ||| ~~~0).setWidth 3 = 7#3)

/-- After power-on the KERNAL is visible (R40). -/
theorem powerOn_memRead_high (i : PowerOn) {a : Word} (h : 0xE000 ≤ a.toNat) :
    (memRead (powerOn i) a).1 =
      Memory.read Config.kernalFill (Memory.ofBytes Config.kernalFill 0 i.romKernal) (a.toNat - 0xE000) := by
  have hvisible : hiram (powerOn i) = true := by
    rw [hiram, powerOn_bankCfg]
    decide
  rw [memRead_high h, hvisible, if_pos rfl]
  rfl

theorem vicIrqLine_reset : vicIrqLine Vic.reset = false := by decide

/-- Settles O59: start-up is the reset of the power-on state, whose vector bytes are those of the KERNAL image. -/
theorem startupLoadsTheResetVector : Obligations.StartupLoadsTheResetVector := by
  intro i
  refine ⟨fun h => if_neg (mt (lengthsOk_iff i).1 h), fun hB hK hC => ?_⟩
  have hstart : startup i = .running (cpuReset (powerOn i)) := if_pos ((lengthsOk_iff i).2 ⟨hB, hK, hC⟩)
  refine ⟨_, hstart, ?_⟩
  rw [resetProcedure (powerOn i)]
  refine ⟨congrArg BitVec.toNat (powerOn_bankCfg i), ?_, rfl, rfl, rfl, rfl, rfl, rfl, rfl,
    fun k hk => getElem?_eq_read_ofBytes _ (hB ▸ hk),
    fun k hk => getElem?_eq_read_ofBytes _ (hK ▸ hk), fun k hk => getElem?_eq_read_ofBytes _ (hC ▸ hk), vicIrqLine_reset,
    ciaLine_of_latch_zero rfl, ciaLine_of_latch_zero rfl, rfl, rfl⟩
  rw [getElem?_eq_read_ofBytes Config.kernalFill (show 0x1FFC < i.romKernal.length by omega),
    getElem?_eq_read_ofBytes Config.kernalFill (show 0x1FFD < i.romKernal.length by omega),
    powerOn_memRead_high i (by decide), powerOn_memRead_high i (by decide)]
  rfl

end Sys2Proof.Machine
end

section
/-! SUPPORT. `Frame` as a run of steps, and the bound on its length (63_machine_loop.md section 2, R186 to R189). -/

namespace Sys2Proof.Machine

/-! ### Runs -/

section
variable {M : Host.Core} {s t : M.State}

theorem run_succ_of_next (h : M.step s = .next t) (k : Nat) : M.run (k + 1) s = M.run k t := by rw [Host.Core.run, h]

theorem run_succ_of_fault {r : M.Fault} (h : M.step s = .fault r) (k : Nat) : M.run (k + 1) s = .fault r := by
  rw [Host.Core.run, h]

theorem run_succ_congr (h : M.step s = M.step t) (k : Nat) : M.run (k + 1) s = M.run (k + 1) t := by
  rw [Host.Core.run, h, Host.Core.run]

end

/-! ### The end-of-frame test -/

/-- The frame is over: the raster has wrapped or the budget is used up (R186). -/
def FrameOver (s : State) : Prop := s.vic.frameAvailable = true ∨ Config.cycleBudget ≤ s.frameCycles

theorem closeFrame_of_halted {s : State} (h : s.halted = true) : closeFrame s = s := if_pos h

theorem closeFrame_frameOpen_of_over {s : State} (hh : s.halted = false) (h : FrameOver s) :
    (closeFrame s).frameOpen = false := by
  unfold closeFrame
  rw [if_neg (by simp [hh])]
  by_cases hav : s.vic.frameAvailable = true
  · rw [if_pos hav]
  · rw [if_neg hav, if_pos (h.resolve_left hav)]

theorem closeFrame_of_not_over {s : State} (h : ¬FrameOver s) : closeFrame s = s := by
  obtain ⟨hav, hb⟩ := not_or.1 h
  unfold closeFrame
  rw [if_neg hav, if_neg hb, ite_self]

/-! ### The iteration of an open frame -/

/-- The loop stands inside a frame whose budget is not used up. -/
structure InFrame (s : State) : Prop where
  frameOpen : s.frameOpen = true
  running   : s.halted = false
  noFault   : s.fault = none
  budget    : s.frameCycles < Config.cycleBudget

/-- `t` has the loop's flags and the frame's counter of `s`. -/
def SameLoop (s t : State) : Prop :=
  t.frameOpen = s.frameOpen ∧ t.halted = s.halted ∧ t.shutdown = s.shutdown ∧ t.frameCycles = s.frameCycles

theorem sameLoop_stable (s : State) : Stable (SameLoop s) where
  read u a h := by simpa [SameLoop] using h
  write u a v h := by simpa [SameLoop] using h
  regs _ _ _ _ _ _ _ _ h := h

/-- A CPU step leaves the loop's flags and the frame's counter alone. -/
theorem SameLoop.cpuStep {s u : State} (h : cpuStep s = .next u) : SameLoop s u :=
  (sameLoop_stable s).cpuStep (fun _ _ _ h => h) (fun _ _ h => h) ⟨rfl, rfl, rfl, rfl⟩ h

/-- How an iteration inside a frame can end: halted by a fatal fault, or without one and at least 2 cycles later (R183,
R189, R207). -/
theorem InFrame.iterate {s : State} (h : InFrame s) :
    ∃ v, iterate s = .next v ∧ v.shutdown = s.shutdown ∧
      ((v.halted = true ∧ v.fault.isSome = true) ∨
        (v.frameOpen = true ∧ v.halted = false ∧ v.fault = none ∧ s.frameCycles + 2 ≤ v.frameCycles)) := by
  obtain ⟨u, hu⟩ := cpuStep_next h.noFault
  obtain ⟨hopen, hhalted, hshut, hcycles⟩ := SameLoop.cpuStep hu
  cases hf : u.fault with
  | some f =>
    have hafter : afterStep u = { u with halted := true } := by simp [afterStep, hf]
    refine ⟨{ u with halted := true }, ?_, hshut, .inl ⟨rfl, by simp [hf]⟩⟩
    rw [Machine.iterate, hu, onNext, hafter]
  | none =>
    have hcount := (countInBounds_of_cpuStep hu hf).1
    refine ⟨_, iterate_running hu hf, hshut, .inr ⟨hopen.trans h.frameOpen, hhalted.trans h.running, hf, ?_⟩⟩
    rw [← hcycles]
    exact Nat.add_le_add_left hcount _

theorem InFrame.step {s v : State} (h : InFrame s) (hs : s.shutdown = false) (hv : Machine.iterate s = .next v) :
    step s = .next (closeFrame v) := by
  simp [Machine.step, loopStep, h.running, h.noFault, h.frameOpen, loopPass, hs, hv, onNext]

/-! ### The loop of `Frame` -/

theorem frameLoop_shutdown {s : State} (hs : s.shutdown = true) (m : Nat) : frameLoop (m + 1) s = .exit0 s := by
  simp [frameLoop, hs]

section
variable {s v : State} (hs : s.shutdown = false) (hv : iterate s = .next v) (m : Nat)
include hs hv

theorem frameLoop_halted (hh : v.halted = true) : frameLoop (m + 1) s = .exit3 (snapshot v) v := by
  simp [frameLoop, hs, hv, hh]

theorem frameLoop_over (hh : v.halted = false) (h : FrameOver v) :
    frameLoop (m + 1) s = .emitted (snapshot (closeFrame v)) (closeFrame v) := by
  by_cases hav : v.vic.frameAvailable = true
  · simp [frameLoop, closeFrame, hs, hv, hh, hav]
  · simp [frameLoop, closeFrame, hs, hv, hh, hav, h.resolve_left hav]

theorem frameLoop_continues (hh : v.halted = false) (h : ¬FrameOver v) : frameLoop (m + 1) s = frameLoop m v := by
  obtain ⟨hav, hb⟩ := not_or.1 h
  simp [frameLoop, hs, hv, hh, hav, hb]

end

/-- The result of a call of `Frame` is where at most `n` steps from `s` lead: to the emitted state with the frame closed, to
the halted state with its fault, or to the shutdown stop. -/
def EndsWithin (n : Nat) (s : State) : FrameResult → Prop
  | .emitted snap t => snap = snapshot t ∧ t.frameOpen = false ∧ ∃ k < n, Host.Core.run core (k + 1) s = .next t
  | .exit3 snap t =>
    snap = snapshot t ∧ t.halted = true ∧ t.fault.isSome = true ∧ ∃ k < n, Host.Core.run core (k + 1) s = .next t
  | .exit0 _ => s.shutdown = true ∧ ∃ k < n, Host.Core.run core (k + 1) s = .fault Fault.shutdownExit
  | .alreadyHalted _ | .stopped _ | .refused _ => False

/-- One more step in front. -/
theorem EndsWithin.cons {n : Nat} {s t : State} {r : FrameResult} (hstep : step s = .next t)
    (hshut : t.shutdown = s.shutdown) (h : EndsWithin n t r) : EndsWithin (n + 1) s r := by
  cases r with
  | emitted snap u =>
    obtain ⟨hsnap, hclosed, k, hk, hrun⟩ := h
    exact ⟨hsnap, hclosed, k + 1, by omega, (run_succ_of_next (M := core) hstep _).trans hrun⟩
  | exit3 snap u =>
    obtain ⟨hsnap, hhalt, hfault, k, hk, hrun⟩ := h
    exact ⟨hsnap, hhalt, hfault, k + 1, by omega, (run_succ_of_next (M := core) hstep _).trans hrun⟩
  | exit0 u =>
    obtain ⟨hs, k, hk, hrun⟩ := h
    exact ⟨hshut.symm.trans hs, k + 1, by omega, (run_succ_of_next (M := core) hstep _).trans hrun⟩
  | alreadyHalted | stopped | refused => exact h

/-- A state with the same next step and the same shutdown flag ends alike. -/
theorem EndsWithin.congr {n : Nat} {s t : State} {r : FrameResult} (hstep : step s = step t)
    (hshut : s.shutdown = t.shutdown) (h : EndsWithin n t r) : EndsWithin n s r := by
  cases r with
  | emitted | exit3 => simpa only [EndsWithin, run_succ_congr (M := core) hstep] using h
  | exit0 => simpa only [EndsWithin, run_succ_congr (M := core) hstep, hshut] using h
  | alreadyHalted | stopped | refused => exact h

/-- Every iteration uses up at least 2 cycles, so what is left of the budget bounds the steps of the frame (R186, R207). -/
theorem frameLoop_endsWithin {n m : Nat} {s : State} (h : InFrame s) (hm : n ≤ m)
    (hn : Config.cycleBudget ≤ s.frameCycles + 2 * n) : EndsWithin n s (frameLoop m s) := by
  induction n generalizing m s with
  | zero => exact absurd h.budget (Nat.not_lt.2 hn)
  | succ n ih =>
    obtain ⟨m, rfl⟩ : ∃ m', m = m' + 1 := ⟨m - 1, by omega⟩
    cases hs : s.shutdown with
    | true =>
      have hstep := step_shutdown h.running h.noFault hs (.inl h.frameOpen)
      rw [frameLoop_shutdown hs]
      exact ⟨hs, 0, n.succ_pos, run_succ_of_fault (M := core) hstep 0⟩
    | false =>
      obtain ⟨v, hv, hshut, ⟨hhalt, hfault⟩ | ⟨hopen, hrunning, hnofault, hcycles⟩⟩ := h.iterate
      · have hstep := h.step hs hv
        rw [closeFrame_of_halted hhalt] at hstep
        rw [frameLoop_halted hs hv m hhalt]
        exact ⟨rfl, hhalt, hfault, 0, n.succ_pos, run_succ_of_next (M := core) hstep 0⟩
      · have hstep := h.step hs hv
        by_cases hover : FrameOver v
        · rw [frameLoop_over hs hv m hrunning hover]
          exact ⟨rfl, closeFrame_frameOpen_of_over hrunning hover, 0, n.succ_pos, run_succ_of_next (M := core) hstep 0⟩
        · rw [closeFrame_of_not_over hover] at hstep
          rw [frameLoop_continues hs hv m hrunning hover]
          have hin : InFrame v := ⟨hopen, hrunning, hnofault, Nat.lt_of_not_le (not_or.1 hover).2⟩
          exact (ih hin (by omega) (by omega)).cons hstep hshut

/-! ### A call of `Frame` -/

/-- Between frames an unpaused step is the step of the frame that it opens (R186). -/
theorem step_openFrame {s : State} (ho : s.frameOpen = false) (hp : s.paused = false) :
    step s = step (openFrame (takeEvents s)) := by
  have hhalted : (openFrame (takeEvents s)).halted = s.halted := by rw [takeEvents_frame]; rfl
  have hfault : (openFrame (takeEvents s)).fault = s.fault := by rw [takeEvents_frame]; rfl
  have hopen : (openFrame (takeEvents s)).frameOpen = true := rfl
  simp only [step, loopStep, hhalted, hfault, hopen, ho, hp, Bool.false_eq_true, if_false, if_true]

/-- A call of `Frame` ends within 10,000 steps, half the budget; a paused one within one (R186, R187). -/
theorem frame_endsWithin {s : State} (ho : s.frameOpen = false) (hh : s.halted = false) (hf : s.fault = none) :
    EndsWithin 10000 s (frame s.events { s with events := [] }) := by
  rw [frame_eq, hh, if_neg Bool.false_ne_true]
  by_cases hp : s.paused = true
  · have hclosed : (takeEvents s).frameOpen = false := by
      rw [takeEvents_frame]
      exact ho
    rw [if_pos hp]
    exact ⟨rfl, hclosed, 0, by decide, run_succ_of_next (M := core) (step_paused hh hf ho hp) 0⟩
  · have hshut : s.shutdown = (openFrame (takeEvents s)).shutdown := by
      rw [takeEvents_frame]
      rfl
    have hin : InFrame (openFrame (takeEvents s)) := by
      rw [takeEvents_frame]
      exact ⟨rfl, hh, hf, (by decide : 0 < Config.cycleBudget)⟩
    rw [if_neg hp]
    exact (frameLoop_endsWithin hin (by decide) (by decide : Config.cycleBudget ≤ 0 + 2 * 10000)).congr
      (step_openFrame ho (by simpa using hp)) hshut

/-- Settles O16: `frame_endsWithin` without its bound. -/
theorem frameIsARunOfSteps : Obligations.FrameIsARunOfSteps := by
  intro s ho hh hf
  have hends := frame_endsWithin ho hh hf
  generalize frame s.events { s with events := [] } = r at hends ⊢
  cases r with
  | emitted snap t =>
    obtain ⟨hsnap, hclosed, k, -, hrun⟩ := hends
    exact ⟨hsnap, hclosed, k, hrun⟩
  | exit3 snap t =>
    obtain ⟨hsnap, hhalt, hfault, k, -, hrun⟩ := hends
    exact ⟨hsnap, hhalt, hfault, k, hrun⟩
  | exit0 t =>
    obtain ⟨-, k, -, hrun⟩ := hends
    exact ⟨k, hrun⟩
  | alreadyHalted | stopped | refused => exact hends

/-- Settles O17: `frame_endsWithin` where no shutdown is requested. -/
theorem frameEndsWithinTheBudget : Obligations.FrameEndsWithinTheBudget := by
  intro s ⟨hh, hf, hs, _⟩ ho
  have hends := frame_endsWithin ho hh hf
  generalize frame s.events { s with events := [] } = r at hends
  cases r with
  | emitted snap t =>
    obtain ⟨-, hclosed, k, hk, hrun⟩ := hends
    exact ⟨k + 1, t, by omega, by omega, hrun, .inl hclosed⟩
  | exit3 snap t =>
    obtain ⟨-, hhalt, -, k, hk, hrun⟩ := hends
    exact ⟨k + 1, t, by omega, by omega, hrun, .inr hhalt⟩
  | exit0 t => exact absurd (hs.symm.trans hends.1) (by decide)
  | alreadyHalted | stopped | refused => exact hends.elim

end Sys2Proof.Machine
end

section
/-! SUPPORT. Placing a program where the next step fetches (log 12). -/

namespace Sys2Proof.Machine

/-! ### The bytes of a program -/

/-- What a read outside IO gives depends on the port and on the byte of the one memory it reaches (R41). -/
theorem memRead_congr {s t : State} {a : Word} (hio : readSource s a ≠ .io) (hddr : t.ddr = s.ddr) (hdata : t.data = s.data)
    (hram : readSource s a = .ram → ramByte t a = ramByte s a)
    (hbasic : readSource s a = .basic → basicByte t a = basicByte s a)
    (hkernal : readSource s a = .kernal → kernalByte t a = kernalByte s a)
    (hchar : readSource s a = .charRom → charByte t a = charByte s a) : (memRead t a).1 = (memRead s a).1 := by
  rw [memRead, memRead, readSource_congr hddr hdata]
  cases hsrc : readSource s a with
  | port => simp only [portValue, hddr, hdata]
  | io => exact absurd hsrc hio
  | ram => exact hram hsrc
  | basic => exact hbasic hsrc
  | kernal => exact hkernal hsrc
  | charRom => exact hchar hsrc

/-- The program byte `v` stands at `a`: a read of `a`, which is outside IO, gives it. -/
def Holds (s : State) (a : Word) (v : Byte) : Prop := readSource s a ≠ .io ∧ (memRead s a).1 = v

theorem Holds.memRead {s : State} {a : Word} {v : Byte} (h : Holds s a v) : Machine.memRead s a = (v, s) :=
  Prod.ext h.2 (memRead_pure h.1)

/-- A byte is placed in RAM or in the ROM behind the address (log 12). -/
theorem placeByte_cases {s t : State} {a : Word} {v : Byte} (h : placeByte s a v = some t) :
    (readSource s a = .ram ∧ t = setRam s a v) ∨
    (readSource s a = .basic ∧
      t = { s with romBasic := Memory.write Config.basicFill s.romBasic (a.toNat - 0xA000) v }) ∨
    (readSource s a = .kernal ∧
      t = { s with romKernal := Memory.write Config.kernalFill s.romKernal (a.toNat - 0xE000) v }) ∨
    (readSource s a = .charRom ∧
      t = { s with romChar := Memory.write Config.charFill s.romChar (a.toNat - 0xD000) v }) := by
  unfold placeByte at h
  cases hsrc : readSource s a <;> rw [hsrc] at h <;> cases h <;> simp

theorem placeByte_ram {s : State} {a : Word} (v : Byte) (h : readSource s a = .ram) :
    placeByte s a v = some (setRam s a v) := by
  rw [placeByte, h]

/-- `t` is `s` but for RAM and the ROM images. -/
def MemoriesOnly (s t : State) : Prop :=
  t = { s with ram := t.ram, romBasic := t.romBasic, romKernal := t.romKernal, romChar := t.romChar }

theorem MemoriesOnly.trans {s t u : State} (h : MemoriesOnly s t) (h' : MemoriesOnly t u) : MemoriesOnly s u := by
  rw [MemoriesOnly] at h h' ⊢
  rw [h', h]

section
variable {s t : State} {a : Word} {v : Byte} (h : placeByte s a v = some t)
include h

theorem memoriesOnly_placeByte : MemoriesOnly s t := by
  rcases placeByte_cases h with ⟨-, rfl⟩ | ⟨-, rfl⟩ | ⟨-, rfl⟩ | ⟨-, rfl⟩ <;> rfl

theorem readSource_placeByte (b : Word) : readSource t b = readSource s b := by
  rw [memoriesOnly_placeByte h]
  exact readSource_congr rfl rfl b

theorem placeByte_holds : Holds t a v := by
  have hsrc := readSource_placeByte h a
  rcases placeByte_cases h with ⟨hr, rfl⟩ | ⟨hr, rfl⟩ | ⟨hr, rfl⟩ | ⟨hr, rfl⟩
  all_goals
    rw [hr] at hsrc
    refine ⟨by simp [hsrc], ?_⟩
    rw [memRead, hsrc]
    exact Memory.read_write_same ..

/-- Placing a byte leaves every other program byte where it stands: addresses of one window have their own offsets. -/
theorem Holds.placeByte {b : Word} {u : Byte} (hb : Holds s b u) (hne : b ≠ a) : Holds t b u := by
  obtain ⟨hio, hread⟩ := hb
  have hn : b.toNat ≠ a.toNat := mt BitVec.eq_of_toNat_eq hne
  refine ⟨readSource_placeByte h b ▸ hio, Eq.trans ?_ hread⟩
  rcases placeByte_cases h with ⟨hr, rfl⟩ | ⟨hr, rfl⟩ | ⟨hr, rfl⟩ | ⟨hr, rfl⟩
  · exact memRead_congr hio rfl rfl (fun _ => ramByte_setRam_other v hne) (fun _ => rfl) (fun _ => rfl) (fun _ => rfl)
  · refine memRead_congr hio rfl rfl (fun _ => rfl) (fun hs => ?_) (fun _ => rfl) (fun _ => rfl)
    have ha := readSource_basic hr
    have hb := readSource_basic hs
    exact Memory.read_write_other _ _ _ (by omega)
  · refine memRead_congr hio rfl rfl (fun _ => rfl) (fun _ => rfl) (fun hs => ?_) (fun _ => rfl)
    have ha := readSource_kernal hr
    have hb := readSource_kernal hs
    exact Memory.read_write_other _ _ _ (by omega)
  · refine memRead_congr hio rfl rfl (fun _ => rfl) (fun _ => rfl) (fun _ => rfl) (fun hs => ?_)
    have ha := readSource_charRom hr
    have hb := readSource_charRom hs
    exact Memory.read_write_other _ _ _ (by omega)

end

/-! ### Three bytes -/

/-- The bytes `b0`, `b1`, `b2` stand from `a` on. -/
def HoldsThree (s : State) (a : Word) (b0 b1 b2 : Byte) : Prop := Holds s a b0 ∧ Holds s (a + 1) b1 ∧ Holds s (a + 2) b2

theorem placeBytes_cons {s t : State} {a : Word} {v : Byte} {vs : List Byte} (h : placeBytes s a (v :: vs) = some t) :
    ∃ u, placeByte s a v = some u ∧ placeBytes u (a + 1) vs = some t := by
  rw [placeBytes] at h
  cases hv : placeByte s a v with
  | none => simp [hv] at h
  | some u => exact ⟨u, rfl, by simpa [hv] using h⟩

theorem placeBytes_three {s t : State} {a : Word} {b0 b1 b2 : Byte} (h : placeBytes s a [b0, b1, b2] = some t) :
    MemoriesOnly s t ∧ HoldsThree t a b0 b1 b2 := by
  obtain ⟨u0, h0, h⟩ := placeBytes_cons h
  obtain ⟨u1, h1, h⟩ := placeBytes_cons h
  obtain ⟨u2, h2, h⟩ := placeBytes_cons h
  obtain rfl : u2 = t := Option.some.inj h
  have hadd : a + 1 + 1 = a + 2 := by bv_omega
  rw [hadd] at h2
  have hold0 := ((placeByte_holds h0).placeByte h1 (by bv_omega)).placeByte h2 (by bv_omega)
  have hold1 := (placeByte_holds h1).placeByte h2 (by bv_omega)
  exact ⟨((memoriesOnly_placeByte h0).trans (memoriesOnly_placeByte h1)).trans (memoriesOnly_placeByte h2), hold0, hold1,
    placeByte_holds h2⟩

/-- The fallback address takes any program: $C000 is RAM in every configuration (R40). -/
theorem placeBytes_fallback (s : State) (b0 b1 b2 : Byte) : ∃ t, placeBytes s fallbackPc [b0, b1, b2] = some t := by
  have hplace : ∀ (u : State) (a : Word) (v : Byte), 0xC000 ≤ a.toNat ∧ a.toNat ≤ 0xCFFF →
      placeByte u a v = some (setRam u a v) := fun u a v ha => placeByte_ram v (readSource_ramWindow (.inr ha))
  refine ⟨setRam (setRam (setRam s fallbackPc b0) (fallbackPc + 1) b1) (fallbackPc + 1 + 1) b2, ?_⟩
  simp only [placeBytes, hplace _ fallbackPc _ (by decide), hplace _ (fallbackPc + 1) _ (by decide),
    hplace _ (fallbackPc + 1 + 1) _ (by decide)]

/-! ### The machine that is ready to fetch -/

/-- The next step fetches: the loop runs, and neither a pending bit nor a waiting event brings an interrupt. -/
structure ReadyToRun (s : State) : Prop where
  runnable : Runnable s
  noNmi    : s.nmiPending = false
  noIrq    : s.irqPending = false ∨ s.p.i = true
  noPress  : s.frameOpen = true ∨ (⟨.restore, true⟩ : KeyEvent) ∉ s.events

theorem readyToFetch_readyToRun (s : State) : ReadyToRun (readyToFetch s) where
  runnable := ⟨rfl, rfl, rfl, by cases h : s.frameOpen <;> simp [readyToFetch, h]⟩
  noNmi := rfl
  noIrq := by cases h : s.p.i <;> simp [readyToFetch, h]
  noPress := by cases h : s.frameOpen <;> simp [readyToFetch, h, noPulse]

theorem ReadyToRun.of_memoriesOnly {s t : State} (h : ReadyToRun s) (hm : MemoriesOnly s t) : ReadyToRun t := by
  rw [hm]
  exact ⟨h.runnable, h.noNmi, h.noIrq, h.noPress⟩

/-- The events of a ready machine raise no NMI as its iteration begins. -/
theorem ReadyToRun.noInterrupt {s : State} (h : ReadyToRun s) : NoInterrupt (atIteration s) := by
  have hnmi : (atIteration s).nmiPending = false := by
    cases ho : s.frameOpen with
    | true =>
      rw [atIteration_open ho]
      exact h.noNmi
    | false =>
      have hev := h.noPress.resolve_left (by simp [ho])
      rw [atIteration_closed ho, ← Bool.not_eq_true]
      exact fun hn => ((takeEvents_nmiPending_iff s).1 hn).elim (by simp [h.noNmi]) hev
  refine ⟨hnmi, ?_⟩
  rw [atIteration_frame]
  exact h.noIrq

/-- The start of an iteration moves no program byte. -/
theorem Holds.atIteration {s : State} {a : Word} {v : Byte} (h : Holds s a v) : Holds (atIteration s) a v := by
  obtain ⟨hio, hread⟩ := h
  have hsrc : readSource (Machine.atIteration s) a = readSource s a := by
    rw [atIteration_frame]
    exact readSource_congr rfl rfl a
  have hval : (Machine.memRead (Machine.atIteration s) a).1 = (Machine.memRead s a).1 := by
    rw [atIteration_frame]
    exact memRead_congr hio rfl rfl (fun _ => rfl) (fun _ => rfl) (fun _ => rfl) (fun _ => rfl)
  exact ⟨hsrc ▸ hio, hval.trans hread⟩

/-- A placed program stands at PC of a machine that is ready to fetch (log 12). -/
theorem placeProgram_spec (s : State) (b0 b1 b2 : Byte) :
    ReadyToRun (placeProgram s [b0, b1, b2]) ∧
      HoldsThree (placeProgram s [b0, b1, b2]) (placeProgram s [b0, b1, b2]).pc b0 b1 b2 := by
  have hplaced : ∀ r t : State, ReadyToRun r → placeBytes r r.pc [b0, b1, b2] = some t →
      ReadyToRun t ∧ HoldsThree t t.pc b0 b1 b2 := fun r t hr h => by
    obtain ⟨hm, hbytes⟩ := placeBytes_three h
    have hpc : t.pc = r.pc := by rw [hm]
    exact ⟨hr.of_memoriesOnly hm, hpc ▸ hbytes⟩
  have hready := readyToFetch_readyToRun s
  simp only [placeProgram]
  cases h : placeBytes (readyToFetch s) (readyToFetch s).pc [b0, b1, b2] with
  | some t => exact hplaced _ t hready h
  | none =>
    obtain ⟨t, ht⟩ := placeBytes_fallback { readyToFetch s with pc := fallbackPc } b0 b1 b2
    simp only [ht]
    exact hplaced { readyToFetch s with pc := fallbackPc } t ⟨hready.runnable, hready.noNmi, hready.noIrq, hready.noPress⟩ ht

/-! ### The step from a placed program -/

/-- The fetch of a program in RAM or ROM finds its instruction and changes nothing. -/
theorem fetch_of_holdsThree {u : State} {b0 b1 b2 : Byte} {i : Instr} {rest : List Byte} (h : HoldsThree u u.pc b0 b1 b2)
    (hd : decode [b0, b1, b2] = some (i, rest)) : fetch u = .instr i u := by
  obtain ⟨h0, h1, h2⟩ := h
  have hfetch := fetch_of_decode (u := u) (i := i) (rest := rest)
  simp only [h0.memRead, h1.memRead, h2.memRead, ite_self] at hfetch
  exact hfetch hd

/-- The step of a machine that is ready to fetch and at whose PC a program stands. -/
theorem step_of_program {t : State} {b0 b1 b2 : Byte} {i : Instr} {rest : List Byte} (h : ReadyToRun t)
    (hbytes : HoldsThree t t.pc b0 b1 b2) (hd : decode [b0, b1, b2] = some (i, rest)) :
    step t = onNext (exec i (atIteration t)) (fun u => closeFrame (afterStep u)) := by
  obtain ⟨h0, h1, h2⟩ := hbytes
  have hpc : (atIteration t).pc = t.pc := by rw [atIteration_frame]
  have hfault : (atIteration t).fault = none := by
    rw [atIteration_frame]
    exact h.runnable.2.1
  have hfetch : fetch (atIteration t) = .instr i (atIteration t) := by
    refine fetch_of_holdsThree ?_ hd
    rw [hpc]
    exact ⟨h0.atIteration, h1.atIteration, h2.atIteration⟩
  rw [step_runnable h.runnable, cpuStep_instr hfault h.noInterrupt hfetch]

/-- Settles O6: the placed bytes are those fetched, and nothing comes before the fetch. -/
theorem withFetchWordRunsTheInstruction : Obligations.WithFetchWordRunsTheInstruction := by
  intro s nbits w i hd
  obtain ⟨⟨j, rest⟩, hdec, rfl⟩ := Option.map_eq_some_iff.1 hd
  obtain ⟨hready, hbytes⟩ := placeProgram_spec s _ _ _
  exact step_of_program hready hbytes hdec

end Sys2Proof.Machine
end
